-- ==== Sys2Proof/Word.lean ====
section
/-!
DEFINITION. The words of EDID-UNPACK: a byte, a command word, a vendor word, a detailed timing record.

Bits are numbered from 0 at the least significant bit and every value is unsigned (`00_scope.md` section 5).
-/
namespace Sys2Proof

/-- One byte of the inbound stream, the only thing a `PUSH` carries (rule R50). -/
abbrev Byte := BitVec 8

/-- The 10-bit command input `cmd`, format `CMD10` (rule R79). -/
abbrev CmdWord := BitVec 10

/-- The 16-bit vendor word `v`, format `VEN16` (rule R75). -/
abbrev VenWord := BitVec 16

/-- A detailed timing record, format `DTD18`: `rec[k]` is byte `k` in the order consumed (rules R5, R71). -/
abbrev Record := Vector Byte 18

end Sys2Proof
end

