-- ==== Sys2Proof/Config.lean ====
section
/-!
DEFINITION. The free values: what the spec writes `UNSPEC(N)`.

Rule R180 leaves every data register `UNSPEC` after a reset step, and rule R181 every bit of the state before the first
one: "each register holds some value of its width, not known, not necessarily the same after two resets"
(`93_implementation_defined.md` U1). The parameters of `00_scope.md` section 3 are fixed and stand in
`Sys2Proof/Machine/Params.lean`.
-/
namespace Sys2Proof

/-- An `UNSPEC(w)` value: `draw` numbers the event that leaves it open, `slot` the register it stands in. It has no
body, so nothing can be proved of one of them but what holds of every value of its width. Equal arguments give equal
values, in whatever instance or run they are drawn (DESIGN CHOICE, log entry 12). -/
opaque Config.freeValue (w draw slot : Nat) : BitVec w

end Sys2Proof
end

