-- ==== Sys2Proof/Machine/State.lean ====
section
/-!
DEFINITION. The state of one EDID-UNPACK instance, the ways a step can stop, and the state after reset.

The registers are those of rule R20 and nothing else. Two fields are the model's own and no registers of the block:
`inputs`, the `(rst, cmd)` pairs the host has issued and the block has not yet taken, which the spec hands to the step
function as arguments (rule R30, log entry 1), and `draws`, the number of the next free value (log entry 3).
-/
namespace Sys2Proof.Machine

/-- `mode` (rule R21); the four values are all a 2-bit register can hold (log entry 8). -/
inductive Mode where
  /-- No record open; `START` is accepted. -/
  | idle
  /-- A detailed timing record is open. -/
  | dtd
  /-- A vendor word is open. -/
  | ven
  /-- `Incomplete` was raised; every command is ignored until reset. -/
  | failed
  deriving DecidableEq, Repr

/-- The detailed timing result bank, each register at its width (rule R25). -/
structure DtdBank where
  pixelClock : BitVec 20
  hActive : BitVec 12
  hBlanking : BitVec 12
  vActive : BitVec 12
  vBlanking : BitVec 12
  hFrontPorch : BitVec 10
  hSyncWidth : BitVec 10
  vFrontPorch : BitVec 10
  vSyncWidth : BitVec 10
  hSize : BitVec 12
  vSize : BitVec 12
  hBorder : BitVec 8
  vBorder : BitVec 8
  features : BitVec 8
  tagNonzero : Bool
  deriving DecidableEq, Repr

/-- The vendor result bank (rule R26). -/
structure VenBank where
  letter0 : BitVec 8
  letter1 : BitVec 8
  letter2 : BitVec 8
  inRange : Bool
  deriving DecidableEq, Repr

/-- What the host drives in one step: `rst` and `cmd` (rule R30). -/
structure Input where
  rst : Bool
  cmd : CmdWord
  deriving DecidableEq, Repr

/-- The state: the registers of rule R20, and the model's own `inputs` and `draws`. -/
structure State where
  mode : Mode
  pos : BitVec 5
  errPos : BitVec 5
  buf : Vector Byte 18
  dtd : DtdBank
  ven : VenBank
  dtdValid : Bool
  venValid : Bool
  inputs : List Input
  draws : Nat
  deriving DecidableEq, Repr

/-- Why the machine stops. The block's own failure `Incomplete` is none of these: it is the mode `failed`, a next state
(rule R161). -/
inductive Fault where
  /-- Raised by `step` alone, when the host has issued no further `(rst, cmd)` pair: "a run is over when the host stops
  issuing steps" (rule R150). Safe: the block takes no step either, and keeps its state. -/
  | runOver
  deriving DecidableEq, Repr

/-- Why an instruction has no meaning. -/
inductive Refusal where
  /-- Raised by an arm of `exec` that has no meaning yet. Safe: nothing can be proved of such an instruction. No arm of
  this model raises it. -/
  | notModelled (mnemonic : String)
  deriving DecidableEq, Repr

/-- The detailed timing bank with every register 0. -/
def DtdBank.zero : DtdBank :=
  { pixelClock := 0, hActive := 0, hBlanking := 0, vActive := 0, vBlanking := 0, hFrontPorch := 0, hSyncWidth := 0
    vFrontPorch := 0, vSyncWidth := 0, hSize := 0, vSize := 0, hBorder := 0, vBorder := 0, features := 0
    tagNonzero := false }

/-- The vendor bank with every register 0. -/
def VenBank.zero : VenBank := { letter0 := 0, letter1 := 0, letter2 := 0, inRange := false }

/-- The machine right after reset (rules R33, R180): `mode` `IDLE`, `pos`, `err_pos` and both valid flags 0. The data
registers, which the spec leaves `UNSPEC`, are 0 (DESIGN CHOICE, log entry 4); no input is pending. -/
def State.reset : State :=
  { mode := .idle, pos := 0, errPos := 0
    buf := #v[0, 0, 0, 0, 0, 0, 0, 0, 0, 0, 0, 0, 0, 0, 0, 0, 0, 0]
    dtd := DtdBank.zero, ven := VenBank.zero, dtdValid := false, venValid := false, inputs := [], draws := 0 }

end Sys2Proof.Machine
end

