-- ==== Sys2Proof/Machine/Free.lean ====
section
/-!
DEFINITION. `UNSPEC` values at the shape of each register, and the power-on state (rules R180, R181).

Slots: 0 `mode`, 1 `pos`, 2 `err_pos`, 3 `dtd_valid`, 4 `ven_valid`, 10 to 27 `buf[0]` to `buf[17]`, 30 to 44 the `dtd`
bank, 50 to 53 the `ven` bank.
-/
namespace Sys2Proof.Machine

/-- One `UNSPEC` bit. -/
def freeFlag (draw slot : Nat) : Bool := Config.freeValue 1 draw slot = 1

/-- Eighteen `UNSPEC(8)` values. -/
def freeBuf (draw : Nat) : Vector Byte 18 :=
  #v[Config.freeValue 8 draw 10, Config.freeValue 8 draw 11, Config.freeValue 8 draw 12, Config.freeValue 8 draw 13,
    Config.freeValue 8 draw 14, Config.freeValue 8 draw 15, Config.freeValue 8 draw 16, Config.freeValue 8 draw 17,
    Config.freeValue 8 draw 18, Config.freeValue 8 draw 19, Config.freeValue 8 draw 20, Config.freeValue 8 draw 21,
    Config.freeValue 8 draw 22, Config.freeValue 8 draw 23, Config.freeValue 8 draw 24, Config.freeValue 8 draw 25,
    Config.freeValue 8 draw 26, Config.freeValue 8 draw 27]

/-- The fifteen `dtd` registers, each `UNSPEC` of its own width (rule R180). -/
def freeDtd (draw : Nat) : DtdBank :=
  { pixelClock := Config.freeValue 20 draw 30
    hActive := Config.freeValue 12 draw 31
    hBlanking := Config.freeValue 12 draw 32
    vActive := Config.freeValue 12 draw 33
    vBlanking := Config.freeValue 12 draw 34
    hFrontPorch := Config.freeValue 10 draw 35
    hSyncWidth := Config.freeValue 10 draw 36
    vFrontPorch := Config.freeValue 10 draw 37
    vSyncWidth := Config.freeValue 10 draw 38
    hSize := Config.freeValue 12 draw 39
    vSize := Config.freeValue 12 draw 40
    hBorder := Config.freeValue 8 draw 41
    vBorder := Config.freeValue 8 draw 42
    features := Config.freeValue 8 draw 43
    tagNonzero := freeFlag draw 44 }

/-- The four `ven` registers, each `UNSPEC` of its own width (rule R180). -/
def freeVen (draw : Nat) : VenBank :=
  { letter0 := Config.freeValue 8 draw 50
    letter1 := Config.freeValue 8 draw 51
    letter2 := Config.freeValue 8 draw 52
    inRange := freeFlag draw 53 }

/-- The encoding of `mode` (rule R21). -/
def Mode.code : Mode → BitVec 2
  | .idle => 0
  | .dtd => 1
  | .ven => 2
  | .failed => 3

/-- The mode of a 2-bit value (rule R21). -/
def Mode.ofCode (c : BitVec 2) : Mode :=
  if c = 0 then .idle else if c = 1 then .dtd else if c = 2 then .ven else .failed

/-- The state before the first reset: every bit of it is `UNSPEC`, `mode` included (rule R181). `inputs` is what the
host is about to issue. -/
def State.powerOn (draw : Nat) (inputs : List Input) : State :=
  { mode := Mode.ofCode (Config.freeValue 2 draw 0)
    pos := Config.freeValue 5 draw 1
    errPos := Config.freeValue 5 draw 2
    buf := freeBuf draw
    dtd := freeDtd draw
    ven := freeVen draw
    dtdValid := freeFlag draw 3
    venValid := freeFlag draw 4
    inputs := inputs
    draws := draw + 1 }

end Sys2Proof.Machine
end

