-- ==== Sys2Proof/Syntax.lean ====
section
/-!
DEFINITION. The instructions of EDID-UNPACK: one constructor per row of `spec/opcode_table.json`.

Five rows are the host commands of the command port (format `CMD10`, rule R80). The other twenty-one are the
layer F data operations on a detailed timing record (format `DTD18`) or a vendor word (format `VEN16`): each whole
operation, and one row per result of it (rule R84). A data operation carries its record or word as its operand, as
`DTD_UNPACK(rec)` (rule R100) and `VEN_UNPACK(v)` (rule R130) do.
-/
namespace Sys2Proof

/-- The three formats, each of one fixed length (rule R70). -/
inductive Format where
  /-- A host command word of 10 bits. -/
  | cmd10
  /-- A detailed timing record of 18 bytes. -/
  | dtd18
  /-- A vendor word of 2 bytes, the first the more significant. -/
  | ven16
  deriving DecidableEq, Repr

/-- The rows of `spec/opcode_table.json`, in its order. -/
inductive Row where
  | nop | startDtd | startVen | push | endBuffer
  | dtdUnpack | dtdPixelClock | dtdHActive | dtdHBlanking | dtdVActive
  | dtdVBlanking | dtdHFrontPorch | dtdHSyncWidth | dtdVFrontPorch | dtdVSyncWidth
  | dtdHSize | dtdVSize | dtdHBorder | dtdVBorder | dtdFeatures
  | dtdTagNonzero | venUnpack | venLetter0 | venLetter1 | venLetter2
  | venInRange
  deriving DecidableEq, Repr

/-- The instructions: the five commands of rule R80 and the data operations of rules R100 to R115 and R130 to R134. -/
inductive Instr where
  /-- `NOP` (rule R141). -/
  | nop
  /-- `START DTD` (rule R142). -/
  | startDtd
  /-- `START VEN` (rule R143). -/
  | startVen
  /-- `PUSH b` (rule R144). -/
  | push (b : Byte)
  /-- `END`: the host's input buffer has no more bytes (rule R145). -/
  | endBuffer
  /-- `DTD_UNPACK`, the whole record to all fifteen results (rule R100). -/
  | dtdUnpack (rec : Record)
  /-- The result `pixel_clock` of `DTD_UNPACK` (rule R101). -/
  | dtdPixelClock (rec : Record)
  /-- The result `h_active` of `DTD_UNPACK` (rule R102). -/
  | dtdHActive (rec : Record)
  /-- The result `h_blanking` of `DTD_UNPACK` (rule R103). -/
  | dtdHBlanking (rec : Record)
  /-- The result `v_active` of `DTD_UNPACK` (rule R104). -/
  | dtdVActive (rec : Record)
  /-- The result `v_blanking` of `DTD_UNPACK` (rule R105). -/
  | dtdVBlanking (rec : Record)
  /-- The result `h_front_porch` of `DTD_UNPACK` (rule R106). -/
  | dtdHFrontPorch (rec : Record)
  /-- The result `h_sync_width` of `DTD_UNPACK` (rule R107). -/
  | dtdHSyncWidth (rec : Record)
  /-- The result `v_front_porch` of `DTD_UNPACK` (rule R108). -/
  | dtdVFrontPorch (rec : Record)
  /-- The result `v_sync_width` of `DTD_UNPACK` (rule R109). -/
  | dtdVSyncWidth (rec : Record)
  /-- The result `h_size` of `DTD_UNPACK` (rule R110). -/
  | dtdHSize (rec : Record)
  /-- The result `v_size` of `DTD_UNPACK` (rule R111). -/
  | dtdVSize (rec : Record)
  /-- The result `h_border` of `DTD_UNPACK` (rule R112). -/
  | dtdHBorder (rec : Record)
  /-- The result `v_border` of `DTD_UNPACK` (rule R113). -/
  | dtdVBorder (rec : Record)
  /-- The result `features` of `DTD_UNPACK` (rule R114). -/
  | dtdFeatures (rec : Record)
  /-- The result `tag_nonzero` of `DTD_UNPACK` (rule R115). -/
  | dtdTagNonzero (rec : Record)
  /-- `VEN_UNPACK`, the whole word to all four results (rule R130). -/
  | venUnpack (v : VenWord)
  /-- The result `letter0` of `VEN_UNPACK` (rule R131). -/
  | venLetter0 (v : VenWord)
  /-- The result `letter1` of `VEN_UNPACK` (rule R132). -/
  | venLetter1 (v : VenWord)
  /-- The result `letter2` of `VEN_UNPACK` (rule R133). -/
  | venLetter2 (v : VenWord)
  /-- The result `in_range` of `VEN_UNPACK` (rule R134). -/
  | venInRange (v : VenWord)
  deriving DecidableEq, Repr

/-- Why a decoder rejects what it was handed. No command word, record or vendor word is ever rejected (rules R78,
R80): what is rejected is bytes that are not one. -/
inductive Reject where
  /-- The number of bytes is not the format's (rule R70). -/
  | wrongLength
  /-- A command given as two bytes has a bit set above `cmd[9]`; the command port has 10 bits (rule R30). -/
  | notTenBits
  /-- The command word is one of another row of the table (rule R80: a word selects exactly one row). -/
  | otherRow
  deriving DecidableEq, Repr

end Sys2Proof
end

