-- ==== Sys2Proof/WellFormed.lean ====
section
/-!
DEFINITION. Well-formedness: of raw words and bytes before they become instructions, and of instructions.

The types of `Instr` leave no ill-formed instruction (a byte has 8 bits, a record exactly 18 bytes, a vendor word 16
bits), and the spec excludes no operand value (rules R78, R80), so every instruction is well formed. What can be ill
formed is raw input: a number too wide for the command port, or a byte list of the wrong length.
-/
namespace Sys2Proof

/-- The number of bytes of one unit of a format: rule R5 (18), rule R6 (2), and for a command word the two bytes in
which this model's byte decoder takes its 10 bits (log entry 7). -/
def Format.bytes : Format → Nat
  | .cmd10 => 2
  | .dtd18 => 18
  | .ven16 => 2

/-- A number that the 10-bit command port can carry (rule R30). -/
def cmdWordFits (w : Nat) : Bool := w < 1024

/-- A byte list that is one unit of a format: exactly its length (rule R70), and for a command nothing above
`cmd[9]`. -/
def bytesFit (f : Format) (bytes : List Byte) : Bool :=
  bytes.length == f.bytes &&
    match f with
    | .cmd10 => cmdWordFits ((bytes[1]?.getD 0).toNat * 256)
    | .dtd18 => true
    | .ven16 => true

/-- Every instruction is well formed: rule R78 and rule R80 exclude no operand value. -/
def Instr.wf : Instr → Bool
  | .nop => true
  | .startDtd => true
  | .startVen => true
  | .push _ => true
  | .endBuffer => true
  | .dtdUnpack _ => true
  | .dtdPixelClock _ => true
  | .dtdHActive _ => true
  | .dtdHBlanking _ => true
  | .dtdVActive _ => true
  | .dtdVBlanking _ => true
  | .dtdHFrontPorch _ => true
  | .dtdHSyncWidth _ => true
  | .dtdVFrontPorch _ => true
  | .dtdVSyncWidth _ => true
  | .dtdHSize _ => true
  | .dtdVSize _ => true
  | .dtdHBorder _ => true
  | .dtdVBorder _ => true
  | .dtdFeatures _ => true
  | .dtdTagNonzero _ => true
  | .venUnpack _ => true
  | .venLetter0 _ => true
  | .venLetter1 _ => true
  | .venLetter2 _ => true
  | .venInRange _ => true

end Sys2Proof
end

