-- ==== Sys2Proof/Decode.lean ====
section
/-!
DEFINITION. Decoding and encoding: the command map of rule R80, the record and word formats of rules R71 and R75, and
the encoder of each.

`decodeCmd` is the decoder of the command port and is total on all 1024 words (rule R80). `decode` reads one unit of a
given format from bytes. `decodeAs` reads the bytes as a given row of the opcode table: the rows of a record format
share one encoding with no fixed bit (rule R84), so which of them is meant is said by the row, never by the bytes
(rule R70).
-/
namespace Sys2Proof

/-- `op = cmd[9:8]` (rule R79). -/
def CmdWord.op (w : CmdWord) : BitVec 2 := w.extractLsb' 8 2

/-- `arg = cmd[7:0]`, the operand `b` of `PUSH` (rules R79, R81). -/
def CmdWord.arg (w : CmdWord) : Byte := w.extractLsb' 0 8

/-- `sel = cmd[0]`, which record a `START` opens (rules R79, R81). -/
def CmdWord.sel (w : CmdWord) : Bool := w.getLsbD 0

/-- The opcode map of `CMD10`: every word is exactly one of five commands (rule R80). -/
def decodeCmd (w : CmdWord) : Instr :=
  if w.op = 0 then .nop
  else if w.op = 1 then (if w.sel then .startVen else .startDtd)
  else if w.op = 2 then .push w.arg
  else .endBuffer

/-- The row an instruction stands for. -/
def Instr.row : Instr → Row
  | .nop => .nop
  | .startDtd => .startDtd
  | .startVen => .startVen
  | .push _ => .push
  | .endBuffer => .endBuffer
  | .dtdUnpack _ => .dtdUnpack
  | .dtdPixelClock _ => .dtdPixelClock
  | .dtdHActive _ => .dtdHActive
  | .dtdHBlanking _ => .dtdHBlanking
  | .dtdVActive _ => .dtdVActive
  | .dtdVBlanking _ => .dtdVBlanking
  | .dtdHFrontPorch _ => .dtdHFrontPorch
  | .dtdHSyncWidth _ => .dtdHSyncWidth
  | .dtdVFrontPorch _ => .dtdVFrontPorch
  | .dtdVSyncWidth _ => .dtdVSyncWidth
  | .dtdHSize _ => .dtdHSize
  | .dtdVSize _ => .dtdVSize
  | .dtdHBorder _ => .dtdHBorder
  | .dtdVBorder _ => .dtdVBorder
  | .dtdFeatures _ => .dtdFeatures
  | .dtdTagNonzero _ => .dtdTagNonzero
  | .venUnpack _ => .venUnpack
  | .venLetter0 _ => .venLetter0
  | .venLetter1 _ => .venLetter1
  | .venLetter2 _ => .venLetter2
  | .venInRange _ => .venInRange

/-- The format of a row (the table's `format`, rule R70). -/
def Row.format : Row → Format
  | .nop | .startDtd | .startVen | .push | .endBuffer => .cmd10
  | .dtdUnpack | .dtdPixelClock | .dtdHActive | .dtdHBlanking | .dtdVActive | .dtdVBlanking
  | .dtdHFrontPorch | .dtdHSyncWidth | .dtdVFrontPorch | .dtdVSyncWidth | .dtdHSize | .dtdVSize
  | .dtdHBorder | .dtdVBorder | .dtdFeatures | .dtdTagNonzero => .dtd18
  | .venUnpack | .venLetter0 | .venLetter1 | .venLetter2 | .venInRange => .ven16

/-- The `match` and `mask` columns of the table for a command row (rule R80); a record row has no fixed bit, so both
are 0 (rule R84). -/
def Row.matchMask : Row → CmdWord × CmdWord
  | .nop => (0x000, 0x300)
  | .startDtd => (0x100, 0x301)
  | .startVen => (0x101, 0x301)
  | .push => (0x200, 0x300)
  | .endBuffer => (0x300, 0x300)
  | .dtdUnpack | .dtdPixelClock | .dtdHActive | .dtdHBlanking | .dtdVActive | .dtdVBlanking
  | .dtdHFrontPorch | .dtdHSyncWidth | .dtdVFrontPorch | .dtdVSyncWidth | .dtdHSize | .dtdVSize
  | .dtdHBorder | .dtdVBorder | .dtdFeatures | .dtdTagNonzero
  | .venUnpack | .venLetter0 | .venLetter1 | .venLetter2 | .venInRange => (0, 0)

/-- The vendor word of its two bytes, big-endian: the first byte is the more significant (rule R54). -/
def be16 (first second : Byte) : VenWord := (first.setWidth 16 <<< 8) ||| second.setWidth 16

/-- A command word from its two bytes in the table's bit numbering: the first byte is `cmd[7:0]`, the second holds
`cmd[9:8]` and must hold nothing above (log entry 7). -/
def cmdOfBytes : List Byte → Except Reject CmdWord
  | [lo, hi] =>
    if hi.toNat < 4 then .ok (lo.setWidth 10 ||| (hi.setWidth 10 <<< 8)) else .error .notTenBits
  | _ => .error .wrongLength

/-- A record is exactly 18 bytes (rules R5, R53). -/
def recordOfBytes (bytes : List Byte) : Except Reject Record :=
  if h : bytes.length = 18 then .ok ⟨⟨bytes⟩, h⟩ else .error .wrongLength

/-- A vendor word is exactly 2 bytes (rules R6, R53). -/
def venOfBytes : List Byte → Except Reject VenWord
  | [first, second] => .ok (be16 first second)
  | _ => .error .wrongLength

/-- One unit of a format, whole: a command, the unpacking of a record, the unpacking of a vendor word. -/
def decode (f : Format) (bytes : List Byte) : Except Reject Instr :=
  match f with
  | .cmd10 => (cmdOfBytes bytes).map decodeCmd
  | .dtd18 => (recordOfBytes bytes).map .dtdUnpack
  | .ven16 => (venOfBytes bytes).map .venUnpack

/-- Bytes read as a command row: the word must select that row (rule R80). -/
def decodeAsCommand (r : Row) (bytes : List Byte) : Except Reject Instr :=
  match decode .cmd10 bytes with
  | .ok i => if i.row = r then .ok i else .error .otherRow
  | .error e => .error e

/-- Bytes read as a given row of the opcode table. -/
def decodeAs (r : Row) (bytes : List Byte) : Except Reject Instr :=
  match r with
  | .nop => decodeAsCommand .nop bytes
  | .startDtd => decodeAsCommand .startDtd bytes
  | .startVen => decodeAsCommand .startVen bytes
  | .push => decodeAsCommand .push bytes
  | .endBuffer => decodeAsCommand .endBuffer bytes
  | .dtdUnpack => (recordOfBytes bytes).map .dtdUnpack
  | .dtdPixelClock => (recordOfBytes bytes).map .dtdPixelClock
  | .dtdHActive => (recordOfBytes bytes).map .dtdHActive
  | .dtdHBlanking => (recordOfBytes bytes).map .dtdHBlanking
  | .dtdVActive => (recordOfBytes bytes).map .dtdVActive
  | .dtdVBlanking => (recordOfBytes bytes).map .dtdVBlanking
  | .dtdHFrontPorch => (recordOfBytes bytes).map .dtdHFrontPorch
  | .dtdHSyncWidth => (recordOfBytes bytes).map .dtdHSyncWidth
  | .dtdVFrontPorch => (recordOfBytes bytes).map .dtdVFrontPorch
  | .dtdVSyncWidth => (recordOfBytes bytes).map .dtdVSyncWidth
  | .dtdHSize => (recordOfBytes bytes).map .dtdHSize
  | .dtdVSize => (recordOfBytes bytes).map .dtdVSize
  | .dtdHBorder => (recordOfBytes bytes).map .dtdHBorder
  | .dtdVBorder => (recordOfBytes bytes).map .dtdVBorder
  | .dtdFeatures => (recordOfBytes bytes).map .dtdFeatures
  | .dtdTagNonzero => (recordOfBytes bytes).map .dtdTagNonzero
  | .venUnpack => (venOfBytes bytes).map .venUnpack
  | .venLetter0 => (venOfBytes bytes).map .venLetter0
  | .venLetter1 => (venOfBytes bytes).map .venLetter1
  | .venLetter2 => (venOfBytes bytes).map .venLetter2
  | .venInRange => (venOfBytes bytes).map .venInRange

/-- The canonical word of a command: every bit that is not read is 0 (rules R80, R82). -/
def CmdWord.pushOf (b : Byte) : CmdWord := 0x200 ||| b.setWidth 10

/-- The two bytes of a command word, `cmd[7:0]` first (log entry 7). -/
def cmdBytes (w : CmdWord) : List Byte := [w.arg, w.op.setWidth 8]

/-- The two bytes of a vendor word, the more significant first (rule R54). -/
def venBytes (v : VenWord) : List Byte := [v.extractLsb' 8 8, v.extractLsb' 0 8]

/-- The encoder: the bytes of an instruction's word (rule R80's canonical words), record (rule R71) or vendor word
(rule R75). -/
def encode : Instr → List Byte
  | .nop => cmdBytes 0x000
  | .startDtd => cmdBytes 0x100
  | .startVen => cmdBytes 0x101
  | .push b => cmdBytes (CmdWord.pushOf b)
  | .endBuffer => cmdBytes 0x300
  | .dtdUnpack rec | .dtdPixelClock rec | .dtdHActive rec | .dtdHBlanking rec | .dtdVActive rec
  | .dtdVBlanking rec | .dtdHFrontPorch rec | .dtdHSyncWidth rec | .dtdVFrontPorch rec
  | .dtdVSyncWidth rec | .dtdHSize rec | .dtdVSize rec | .dtdHBorder rec | .dtdVBorder rec
  | .dtdFeatures rec | .dtdTagNonzero rec => rec.toList
  | .venUnpack v | .venLetter0 v | .venLetter1 v | .venLetter2 v | .venInRange v => venBytes v

/-- The `n` bytes of a number in the opcode table's bit numbering: byte `k` is bits `8k+7` to `8k`. -/
def tableBytes (n w : Nat) : List Byte := (List.range n).map fun k => BitVec.ofNat 8 (w >>> (8 * k))

/-- The host's question: what is the table's word `w` of `nbits` bits?

144 bits are a detailed timing record. At most 16 bits that the 10-bit command port can carry are a command word. A
16-bit word too wide for the command port can only be a vendor word (log entry 7). Anything else is no unit of any
format. -/
def decodeTableWord (nbits w : Nat) : Option Instr :=
  if nbits = 144 then (decode .dtd18 (tableBytes 18 w)).toOption
  else if nbits ≤ 16 then
    if cmdWordFits w then (decode .cmd10 (tableBytes 2 w)).toOption
    else if nbits = 16 then (decode .ven16 (tableBytes 2 w).reverse).toOption
    else none
  else none

end Sys2Proof
end

