-- ==== Sys2Proof/Machine/Params.lean ====
section
/-!
DEFINITION. The implementation parameters of `00_scope.md` section 3, all fixed.
-/
namespace Sys2Proof.Machine

/-- `DTD_LEN`: one detailed timing record is 18 bytes (rule R5). -/
def dtdLen : Nat := 18

/-- `VEN_LEN`: one vendor word is 2 bytes (rule R6). -/
def venLen : Nat := 2

/-- `ORD_A`, the code of the letter A (rule R7, from general knowledge: log entry 9). -/
def ordA : Nat := 65

/-- The shift that places the high bits of every reassembled field, the two vertical porch and sync fields included
(`V_HI_SHIFT`, rule R8). -/
def hiShift : Nat := 8

end Sys2Proof.Machine
end

