-- ==== Sys2Proof/Machine/Operands.lean ====
section
/-!
DEFINITION. The operand forms: nibbles and bit pairs of a byte, the reassembly of a field, the two byte orders, and the
letter codes of a vendor word.
-/
namespace Sys2Proof.Machine

/-- `b[7:4]`. -/
def hiNibble (b : Byte) : BitVec 4 := b.extractLsb' 4 4

/-- `b[3:0]`. -/
def loNibble (b : Byte) : BitVec 4 := b.extractLsb' 0 4

/-- `b[lo+1:lo]`, a 2-bit group of the porch and sync byte (rule R71). -/
def bitPair (b : Byte) (lo : Nat) : BitVec 2 := b.extractLsb' lo 2

/-- "All reconstructions follow the pattern `value = low_byte | (high_bits << 8)`" (rules R55, R72), at the width of
the result register. -/
def join (w : Nat) {n m : Nat} (low : BitVec n) (high : BitVec m) : BitVec w :=
  low.setWidth w ||| (high.setWidth w <<< hiShift)

/-- `pixel_clock_raw`, little-endian: the first byte is the less significant (rule R54). -/
def le16 (first second : Byte) : BitVec 16 := first.setWidth 16 ||| (second.setWidth 16 <<< 8)

/-- `(v >> shift) & 0x1F` (rule R130). -/
def letterCode (v : VenWord) (shift : Nat) : VenWord := (v >>> shift) &&& 0x1F

/-- The character code of a letter code: `code + ORD_A - 1` (rule R76). -/
def charCode (code : VenWord) : BitVec 8 := code.setWidth 8 + BitVec.ofNat 8 (ordA - 1)

end Sys2Proof.Machine
end

