-- ==== Sys2Proof/Machine/Flags.lean ====
section
/-!
DEFINITION. Every flag of the block: the two that the unpackers compute, and the two derived from `mode` (rule R34).

The valid flags are registers, written by the operations of `Sys2Proof/Machine/Ops.lean`.
-/
namespace Sys2Proof.Machine

/-- `tag_nonzero`: 1 when the first two bytes, read little-endian, are not zero (rule R115). -/
def tagNonzeroFlag (raw : BitVec 16) : Bool := raw ≠ 0

/-- A letter code is in 1 to 26 (rule R134). -/
def codeInRange (code : VenWord) : Bool := 1 ≤ code.toNat && code.toNat ≤ 26

/-- `in_range`: each of the three codes is in 1 to 26 (rule R134). -/
def inRangeFlag (code0 code1 code2 : VenWord) : Bool :=
  codeInRange code0 && codeInRange code1 && codeInRange code2

/-- `busy`: a record is open (rule R29). -/
def Mode.busy : Mode → Bool
  | .idle => false
  | .dtd => true
  | .ven => true
  | .failed => false

/-- `err_incomplete`: the failure stands (rule R29). -/
def Mode.errIncomplete : Mode → Bool
  | .idle => false
  | .dtd => false
  | .ven => false
  | .failed => true

end Sys2Proof.Machine
end

