-- ==== Sys2Proof/Machine/Unpack.lean ====
section
/-!
DEFINITION. Layer F: the pure, total functions `DTD_UNPACK` (rules R100 to R115) and `VEN_UNPACK` (rules R130 to R134),
one definition per result, and the inverse packing of rule R77.
-/
namespace Sys2Proof.Machine

/-- `pixel_clock_raw = rec[0] | (rec[1] << 8)` (rule R101). -/
def pixelClockRaw (rec : Record) : BitVec 16 := le16 rec[0] rec[1]

/-- `pixel_clock = raw * 10`, in kHz; 655350 at most, so 20 bits never wrap (rule R101). -/
def pixelClock (rec : Record) : BitVec 20 := (pixelClockRaw rec).setWidth 20 * 10

/-- `rec[2] | (rec[4][7:4] << 8)` (rule R102). -/
def hActive (rec : Record) : BitVec 12 := join 12 rec[2] (hiNibble rec[4])

/-- `rec[3] | (rec[4][3:0] << 8)` (rule R103). -/
def hBlanking (rec : Record) : BitVec 12 := join 12 rec[3] (loNibble rec[4])

/-- `rec[5] | (rec[7][7:4] << 8)` (rule R104). -/
def vActive (rec : Record) : BitVec 12 := join 12 rec[5] (hiNibble rec[7])

/-- `rec[6] | (rec[7][3:0] << 8)` (rule R105). -/
def vBlanking (rec : Record) : BitVec 12 := join 12 rec[6] (loNibble rec[7])

/-- `rec[8] | (rec[11][7:6] << 8)` (rule R106). -/
def hFrontPorch (rec : Record) : BitVec 10 := join 10 rec[8] (bitPair rec[11] 6)

/-- `rec[9] | (rec[11][5:4] << 8)` (rule R107). -/
def hSyncWidth (rec : Record) : BitVec 10 := join 10 rec[9] (bitPair rec[11] 4)

/-- `rec[10][7:4] | (rec[11][3:2] << 8)`; the shift is 8, so result bits 7:4 are 0 (rules R8, R108). -/
def vFrontPorch (rec : Record) : BitVec 10 := join 10 (hiNibble rec[10]) (bitPair rec[11] 2)

/-- `rec[10][3:0] | (rec[11][1:0] << 8)`; the shift is 8, so result bits 7:4 are 0 (rules R8, R109). -/
def vSyncWidth (rec : Record) : BitVec 10 := join 10 (loNibble rec[10]) (bitPair rec[11] 0)

/-- `rec[12] | (rec[14][7:4] << 8)`, in mm (rule R110). -/
def hSize (rec : Record) : BitVec 12 := join 12 rec[12] (hiNibble rec[14])

/-- `rec[13] | (rec[14][3:0] << 8)`, in mm (rule R111). -/
def vSize (rec : Record) : BitVec 12 := join 12 rec[13] (loNibble rec[14])

/-- `rec[15]`, the count on one side, not doubled (rule R112). -/
def hBorder (rec : Record) : BitVec 8 := rec[15]

/-- `rec[16]`, the count on one side, not doubled (rule R113). -/
def vBorder (rec : Record) : BitVec 8 := rec[16]

/-- `rec[17]`, uninterpreted (rule R114). -/
def features (rec : Record) : BitVec 8 := rec[17]

/-- Whether either of the first two bytes is nonzero (rule R115). -/
def tagNonzero (rec : Record) : Bool := tagNonzeroFlag (pixelClockRaw rec)

/-- `DTD_UNPACK(rec)` (rule R100). -/
def dtdUnpack (rec : Record) : DtdBank :=
  { pixelClock := pixelClock rec
    hActive := hActive rec
    hBlanking := hBlanking rec
    vActive := vActive rec
    vBlanking := vBlanking rec
    hFrontPorch := hFrontPorch rec
    hSyncWidth := hSyncWidth rec
    vFrontPorch := vFrontPorch rec
    vSyncWidth := vSyncWidth rec
    hSize := hSize rec
    vSize := vSize rec
    hBorder := hBorder rec
    vBorder := vBorder rec
    features := features rec
    tagNonzero := tagNonzero rec }

/-- `letter[0]`, from shift 10 (rule R131). -/
def letter0 (v : VenWord) : BitVec 8 := charCode (letterCode v 10)

/-- `letter[1]`, from shift 5 (rule R132). -/
def letter1 (v : VenWord) : BitVec 8 := charCode (letterCode v 5)

/-- `letter[2]`, from shift 0 (rule R133). -/
def letter2 (v : VenWord) : BitVec 8 := charCode (letterCode v 0)

/-- `in_range` (rule R134). -/
def inRange (v : VenWord) : Bool := inRangeFlag (letterCode v 10) (letterCode v 5) (letterCode v 0)

/-- `VEN_UNPACK(v)` (rule R130). -/
def venUnpack (v : VenWord) : VenBank :=
  { letter0 := letter0 v, letter1 := letter1 v, letter2 := letter2 v, inRange := inRange v }

/-- The inverse packing of three letters, bit 15 zero (rule R77). The block does not encode; this stands for what a host
or a test vector does. -/
def venPack (l0 l1 l2 : BitVec 8) : VenWord :=
  ((l0.setWidth 16 - 64) <<< 10) ||| ((l1.setWidth 16 - 64) <<< 5) ||| (l2.setWidth 16 - 64)

end Sys2Proof.Machine
end

