-- ==== Sys2Proof/Machine/Ops.lean ====
section
/-!
DEFINITION. The named operations over the state: reset, opening a record, taking a byte, commit, and taking the one
exception of the block.

There is no memory: the byte stream of `PUSH` is the only data in (rule R50). There is no return from the exception but
reset (rules R164, R168), so `State.resetStep` is both.
-/
namespace Sys2Proof.Machine

/-- A step with `rst = 1` (rule R180): the control registers and valid flags at their reset values, every data register
`UNSPEC`. It re-initialises and restores nothing (rule R168).

The `UNSPEC` values are free values of the draw alone (log entries 3 and 12): two instances, or two runs, that reset at
equal `draws` are left equal data registers, whatever these held before. That is the model's choice. The spec leaves open
whether two resets leave the same values, and on what the values depend (rule R180, U1). -/
def State.resetStep (s : State) : State :=
  { mode := .idle, pos := 0, errPos := 0
    buf := freeBuf s.draws
    dtd := freeDtd s.draws
    ven := freeVen s.draws
    dtdValid := false, venValid := false, inputs := s.inputs, draws := s.draws + 1 }

/-- The pending inputs, replaced (the model's own field, log entry 1). -/
def State.withInputs (s : State) (inputs : List Input) : State := { s with inputs := inputs }

/-- An accepted `START DTD`: `mode <- DTD; pos <- 0; dtd_valid <- 0` (rule R142). -/
def State.openDtd (s : State) : State := { s with mode := .dtd, pos := 0, dtdValid := false }

/-- An accepted `START VEN`: `mode <- VEN; pos <- 0; ven_valid <- 0` (rule R143). -/
def State.openVen (s : State) : State := { s with mode := .ven, pos := 0, venValid := false }

/-- `buf[pos] <- b; pos <- pos + 1` (rule R144).

An accepted `PUSH` finds `pos` below 18 in every state that follows a reset step (rule R144). Only before the first
reset can `pos` name no register of `buf`, or be 31, which rule R22 says is never passed: there `buf`, and `pos` when it
is 31, take free values (log entry 5). -/
def State.takeByte (s : State) (b : Byte) : State :=
  if h : s.pos.toNat < 18 then { s with buf := s.buf.set s.pos.toNat b h, pos := s.pos + 1 }
  else
    { s with
      buf := freeBuf s.draws
      pos := if s.pos.toNat = 31 then Config.freeValue 5 s.draws 1 else s.pos + 1
      draws := s.draws + 1 }

/-- The `dtd` bank, written whole (rule R25). -/
def State.writeDtd (s : State) (bank : DtdBank) : State := { s with dtd := bank }

/-- The `ven` bank, written whole (rule R26). -/
def State.writeVen (s : State) (bank : VenBank) : State := { s with ven := bank }

/-- Commit of a detailed timing record: the bank takes `DTD_UNPACK(rec)`, `dtd_valid <- 1`, and the record is closed,
`mode <- IDLE` (rules R144, R146). -/
def State.commitDtd (s : State) (rec : Record) : State :=
  { s.writeDtd (dtdUnpack rec) with dtdValid := true, mode := .idle }

/-- Commit of a vendor word: the bank takes `VEN_UNPACK(v)`, `ven_valid <- 1`, and the word is closed, `mode <- IDLE`
(rules R144, R147). -/
def State.commitVen (s : State) (v : VenWord) : State :=
  { s.writeVen (venUnpack v) with venValid := true, mode := .idle }

/-- The record whose last byte is being pushed: the bytes in `buf` and the new byte, used directly (rules R24,
R144). -/
def State.recordWith (s : State) (b : Byte) : Record := s.buf.set 17 b

/-- An accepted `PUSH` in mode `DTD`: take the byte, and commit if it is the 18th (rules R144, R146). -/
def State.pushDtd (s : State) (b : Byte) : State :=
  if s.pos.toNat + 1 = dtdLen then (s.takeByte b).commitDtd (s.recordWith b) else s.takeByte b

/-- An accepted `PUSH` in mode `VEN`: take the byte, and commit if it is the 2nd, the word assembled big-endian from
`buf[0]` and the new byte (rules R144, R147). -/
def State.pushVen (s : State) (b : Byte) : State :=
  if s.pos.toNat + 1 = venLen then (s.takeByte b).commitVen (be16 s.buf[0] b) else s.takeByte b

/-- `raise Incomplete(p)`, taking the block's one exception: `err_pos <- p; mode <- FAILED; dtd_valid <- 0;
ven_valid <- 0`, and nothing else (rules R161, R168). -/
def State.raiseIncomplete (s : State) (p : BitVec 5) : State :=
  { s with errPos := p, mode := .failed, dtdValid := false, venValid := false }

end Sys2Proof.Machine
end

