-- ==== Sys2Proof/Machine/Commands.lean ====
section
/-!
DEFINITION. The meanings of the five host commands: the dispatch on `mode` of rule R140, one definition per command.

A command that the current mode does not accept changes no register and raises nothing (rule R148).
-/
namespace Sys2Proof.Machine

/-- `NOP`: no register changes, in every mode (rule R141). -/
def execNop (s : State) : Host.Outcome State Fault Refusal := .next s

/-- `START DTD`: accepted only in mode `IDLE` (rule R142). -/
def execStartDtd (s : State) : Host.Outcome State Fault Refusal :=
  match s.mode with
  | .idle => .next s.openDtd
  | .dtd => .next s
  | .ven => .next s
  | .failed => .next s

/-- `START VEN`: accepted only in mode `IDLE` (rule R143). -/
def execStartVen (s : State) : Host.Outcome State Fault Refusal :=
  match s.mode with
  | .idle => .next s.openVen
  | .dtd => .next s
  | .ven => .next s
  | .failed => .next s

/-- `PUSH b`: accepted only while a record is open (rule R144). -/
def execPush (b : Byte) (s : State) : Host.Outcome State Fault Refusal :=
  match s.mode with
  | .idle => .next s
  | .dtd => .next (s.pushDtd b)
  | .ven => .next (s.pushVen b)
  | .failed => .next s

/-- `END`: raises `Incomplete(pos)` while a record is open, and does nothing otherwise (rule R145). -/
def execEndBuffer (s : State) : Host.Outcome State Fault Refusal :=
  match s.mode with
  | .idle => .next s
  | .dtd => .next (s.raiseIncomplete s.pos)
  | .ven => .next (s.raiseIncomplete s.pos)
  | .failed => .next s

end Sys2Proof.Machine
end

