-- ==== Sys2Proof/Machine/DtdOps.lean ====
section
/-!
DEFINITION. The meanings of the data operation `DTD_UNPACK` and of its fifteen results.

Each places what the layer F function gives in the result register the table row names, and does nothing else:
`DTD_UNPACK` "writes no flag other than its own result `tag_nonzero`" (rule R100). In the wrapper they happen inside the
commit of a `PUSH` (rule R146), never as a step of their own (log entry 2).
-/
namespace Sys2Proof.Machine

/-- `DTD_UNPACK`: all fifteen registers (rule R100). -/
def execDtdUnpack (rec : Record) (s : State) : Host.Outcome State Fault Refusal := .next (s.writeDtd (dtdUnpack rec))

/-- `dtd.pixel_clock` (rule R101). -/
def execDtdPixelClock (rec : Record) (s : State) : Host.Outcome State Fault Refusal :=
  .next (s.writeDtd { s.dtd with pixelClock := pixelClock rec })

/-- `dtd.h_active` (rule R102). -/
def execDtdHActive (rec : Record) (s : State) : Host.Outcome State Fault Refusal :=
  .next (s.writeDtd { s.dtd with hActive := hActive rec })

/-- `dtd.h_blanking` (rule R103). -/
def execDtdHBlanking (rec : Record) (s : State) : Host.Outcome State Fault Refusal :=
  .next (s.writeDtd { s.dtd with hBlanking := hBlanking rec })

/-- `dtd.v_active` (rule R104). -/
def execDtdVActive (rec : Record) (s : State) : Host.Outcome State Fault Refusal :=
  .next (s.writeDtd { s.dtd with vActive := vActive rec })

/-- `dtd.v_blanking` (rule R105). -/
def execDtdVBlanking (rec : Record) (s : State) : Host.Outcome State Fault Refusal :=
  .next (s.writeDtd { s.dtd with vBlanking := vBlanking rec })

/-- `dtd.h_front_porch` (rule R106). -/
def execDtdHFrontPorch (rec : Record) (s : State) : Host.Outcome State Fault Refusal :=
  .next (s.writeDtd { s.dtd with hFrontPorch := hFrontPorch rec })

/-- `dtd.h_sync_width` (rule R107). -/
def execDtdHSyncWidth (rec : Record) (s : State) : Host.Outcome State Fault Refusal :=
  .next (s.writeDtd { s.dtd with hSyncWidth := hSyncWidth rec })

/-- `dtd.v_front_porch` (rule R108). -/
def execDtdVFrontPorch (rec : Record) (s : State) : Host.Outcome State Fault Refusal :=
  .next (s.writeDtd { s.dtd with vFrontPorch := vFrontPorch rec })

/-- `dtd.v_sync_width` (rule R109). -/
def execDtdVSyncWidth (rec : Record) (s : State) : Host.Outcome State Fault Refusal :=
  .next (s.writeDtd { s.dtd with vSyncWidth := vSyncWidth rec })

/-- `dtd.h_size` (rule R110). -/
def execDtdHSize (rec : Record) (s : State) : Host.Outcome State Fault Refusal :=
  .next (s.writeDtd { s.dtd with hSize := hSize rec })

/-- `dtd.v_size` (rule R111). -/
def execDtdVSize (rec : Record) (s : State) : Host.Outcome State Fault Refusal :=
  .next (s.writeDtd { s.dtd with vSize := vSize rec })

/-- `dtd.h_border` (rule R112). -/
def execDtdHBorder (rec : Record) (s : State) : Host.Outcome State Fault Refusal :=
  .next (s.writeDtd { s.dtd with hBorder := hBorder rec })

/-- `dtd.v_border` (rule R113). -/
def execDtdVBorder (rec : Record) (s : State) : Host.Outcome State Fault Refusal :=
  .next (s.writeDtd { s.dtd with vBorder := vBorder rec })

/-- `dtd.features` (rule R114). -/
def execDtdFeatures (rec : Record) (s : State) : Host.Outcome State Fault Refusal :=
  .next (s.writeDtd { s.dtd with features := features rec })

/-- `dtd.tag_nonzero` (rule R115). -/
def execDtdTagNonzero (rec : Record) (s : State) : Host.Outcome State Fault Refusal :=
  .next (s.writeDtd { s.dtd with tagNonzero := tagNonzero rec })

end Sys2Proof.Machine
end

