-- ==== Sys2Proof/Machine/VenOps.lean ====
section
/-!
DEFINITION. The meanings of the data operation `VEN_UNPACK` and of its four results.

Each places what the layer F function gives in the result register the table row names, and does nothing else
(rule R130). In the wrapper they happen inside the commit of a `PUSH` (rule R147), never as a step of their own
(log entry 2).
-/
namespace Sys2Proof.Machine

/-- `VEN_UNPACK`: all four registers (rule R130). -/
def execVenUnpack (v : VenWord) (s : State) : Host.Outcome State Fault Refusal := .next (s.writeVen (venUnpack v))

/-- `ven.letter[0]` (rule R131). -/
def execVenLetter0 (v : VenWord) (s : State) : Host.Outcome State Fault Refusal :=
  .next (s.writeVen { s.ven with letter0 := letter0 v })

/-- `ven.letter[1]` (rule R132). -/
def execVenLetter1 (v : VenWord) (s : State) : Host.Outcome State Fault Refusal :=
  .next (s.writeVen { s.ven with letter1 := letter1 v })

/-- `ven.letter[2]` (rule R133). -/
def execVenLetter2 (v : VenWord) (s : State) : Host.Outcome State Fault Refusal :=
  .next (s.writeVen { s.ven with letter2 := letter2 v })

/-- `ven.in_range` (rule R134). -/
def execVenInRange (v : VenWord) (s : State) : Host.Outcome State Fault Refusal :=
  .next (s.writeVen { s.ven with inRange := inRange v })

end Sys2Proof.Machine
end

