-- ==== Sys2Proof/Machine/Dispatch.lean ====
section
/-! DEFINITION. `exec`: one arm per instruction, each one call of its meaning. -/
namespace Sys2Proof.Machine

def exec (i : Instr) (s : State) : Host.Outcome State Fault Refusal :=
  match i with
  | .nop => Sys2Proof.Machine.execNop s
  | .startDtd => Sys2Proof.Machine.execStartDtd s
  | .startVen => Sys2Proof.Machine.execStartVen s
  | .push b => Sys2Proof.Machine.execPush b s
  | .endBuffer => Sys2Proof.Machine.execEndBuffer s
  | .dtdUnpack rec => Sys2Proof.Machine.execDtdUnpack rec s
  | .dtdPixelClock rec => Sys2Proof.Machine.execDtdPixelClock rec s
  | .dtdHActive rec => Sys2Proof.Machine.execDtdHActive rec s
  | .dtdHBlanking rec => Sys2Proof.Machine.execDtdHBlanking rec s
  | .dtdVActive rec => Sys2Proof.Machine.execDtdVActive rec s
  | .dtdVBlanking rec => Sys2Proof.Machine.execDtdVBlanking rec s
  | .dtdHFrontPorch rec => Sys2Proof.Machine.execDtdHFrontPorch rec s
  | .dtdHSyncWidth rec => Sys2Proof.Machine.execDtdHSyncWidth rec s
  | .dtdVFrontPorch rec => Sys2Proof.Machine.execDtdVFrontPorch rec s
  | .dtdVSyncWidth rec => Sys2Proof.Machine.execDtdVSyncWidth rec s
  | .dtdHSize rec => Sys2Proof.Machine.execDtdHSize rec s
  | .dtdVSize rec => Sys2Proof.Machine.execDtdVSize rec s
  | .dtdHBorder rec => Sys2Proof.Machine.execDtdHBorder rec s
  | .dtdVBorder rec => Sys2Proof.Machine.execDtdVBorder rec s
  | .dtdFeatures rec => Sys2Proof.Machine.execDtdFeatures rec s
  | .dtdTagNonzero rec => Sys2Proof.Machine.execDtdTagNonzero rec s
  | .venUnpack v => Sys2Proof.Machine.execVenUnpack v s
  | .venLetter0 v => Sys2Proof.Machine.execVenLetter0 v s
  | .venLetter1 v => Sys2Proof.Machine.execVenLetter1 v s
  | .venLetter2 v => Sys2Proof.Machine.execVenLetter2 v s
  | .venInRange v => Sys2Proof.Machine.execVenInRange v s

end Sys2Proof.Machine
end

