-- ==== Sys2Proof/Machine/Cycle.lean ====
section
/-!
DEFINITION. One step of the block as the spec writes it, `step(S, rst, cmd)` (rule R140), and how one unit of an
encoding is put where the next step takes it.
-/
namespace Sys2Proof.Machine

/-- `step(S, rst, cmd)`: with `rst = 1` a reset, the command not looked at; else the command that `cmd` decodes to
(rules R140, R167). -/
def cycle (rst : Bool) (cmd : CmdWord) (s : State) : Host.Outcome State Fault Refusal :=
  if rst then .next s.resetStep else exec (decodeCmd cmd) s

/-- One step with a command and `rst = 0`. -/
def Input.ofCmd (w : CmdWord) : Input := { rst := false, cmd := w }

/-- The input of a `RESET` (rule R82); its command word is not looked at. -/
def Input.reset : Input := { rst := true, cmd := 0 }

/-- A command placed as the host's next step. -/
def State.placeCmd (s : State) (w : CmdWord) : State := s.withInputs (Input.ofCmd w :: s.inputs)

/-- A detailed timing record placed so that the next step unpacks it: it is open, 17 of its bytes have arrived, and the
host's next step is the `PUSH` of the 18th (rule R146). -/
def State.placeRecord (s : State) (rec : Record) : State :=
  { s with
    mode := .dtd, pos := 17, buf := rec.set 17 s.buf[17]
    inputs := Input.ofCmd (CmdWord.pushOf rec[17]) :: s.inputs }

/-- A vendor word placed so that the next step unpacks it: it is open, its first byte has arrived, and the host's next
step is the `PUSH` of the second (rule R147). -/
def State.placeVen (s : State) (v : VenWord) : State :=
  { s with
    mode := .ven, pos := 1, buf := s.buf.set 0 (v.extractLsb' 8 8)
    inputs := Input.ofCmd (CmdWord.pushOf (v.extractLsb' 0 8)) :: s.inputs }

/-- One unit of an encoding, numbered as the opcode table numbers it, placed where the next step takes it. A number that
is no unit of any format is put on the command port, which has 10 bits. -/
def placeTableWord (s : State) (nbits w : Nat) : State :=
  match decodeTableWord nbits w with
  | some (.dtdUnpack rec) => s.placeRecord rec
  | some (.venUnpack v) => s.placeVen v
  | _ => s.placeCmd (BitVec.ofNat 10 w)

end Sys2Proof.Machine
end

