-- ==== Sys2Proof/Machine/Step.lean ====
section
/-! DEFINITION. `step`: the host's next `(rst, cmd)` pair, taken and run. -/
namespace Sys2Proof.Machine

/-- One step: the first pending input is taken and `cycle` runs it (rules R59, R140). With none pending the run is over
(rule R150). -/
def step (s : State) : Host.Outcome State Fault Refusal :=
  match s.inputs with
  | [] => .fault .runOver
  | i :: rest => cycle i.rst i.cmd (s.withInputs rest)

/-- The state whose very next step runs the table's word `w` of `nbits` bits (log entry 6). -/
def State.withFetchWord (s : State) (nbits w : Nat) : State := placeTableWord s nbits w

end Sys2Proof.Machine
end

