-- ==== Sys2Proof/Machine/Instances.lean ====
section
/-!
DEFINITION. Several EDID-UNPACK instances side by side (rule R173): each has its own registers and its own command port,
and a step of one reads and writes nothing of another (log entry 11). Two instances that reset at
equal `draws` are left equal `UNSPEC` values (log entry 12).
-/
namespace Sys2Proof.Machine

/-- A step of instance `k` of several. An instance that does not exist takes no step. -/
def stepNth (all : List State) (k : Nat) : Host.Outcome (List State) Fault Refusal :=
  match all[k]? with
  | none => .next all
  | some s =>
    match step s with
    | .next t => .next (all.set k t)
    | .fault f => .fault f
    | .refused r => .refused r

end Sys2Proof.Machine
end

