-- ==== Sys2Proof/Machine/Layout.lean ====
section
/-!
DEFINITION. The layout table of rule R71 as data, row by row, and the field extractor that rule R84 says can be written
from a table row alone. It is a second account of `DTD_UNPACK`, read from the table and not from the formulas.
-/
namespace Sys2Proof.Machine

/-- The fourteen fields of a record; `raw` is `pixel_clock_raw`. -/
inductive Field where
  | raw | hActive | hBlanking | vActive | vBlanking | hFrontPorch | hSyncWidth | vFrontPorch | vSyncWidth
  | hSize | vSize | hBorder | vBorder | features
  deriving DecidableEq, Repr

/-- One row of rule R71: bits `hi:lo` of byte `byte` go to bits `lo` and up of the result, at `resultLo`. -/
structure LayoutRow where
  byte : Fin 18
  hi : Nat
  lo : Nat
  field : Field
  resultLo : Nat
  deriving DecidableEq, Repr

/-- The 25 rows of rule R71, in its order. -/
def layout : List LayoutRow :=
  [⟨0, 7, 0, .raw, 0⟩, ⟨1, 7, 0, .raw, 8⟩, ⟨2, 7, 0, .hActive, 0⟩, ⟨3, 7, 0, .hBlanking, 0⟩,
    ⟨4, 7, 4, .hActive, 8⟩, ⟨4, 3, 0, .hBlanking, 8⟩, ⟨5, 7, 0, .vActive, 0⟩, ⟨6, 7, 0, .vBlanking, 0⟩,
    ⟨7, 7, 4, .vActive, 8⟩, ⟨7, 3, 0, .vBlanking, 8⟩] ++
  [⟨8, 7, 0, .hFrontPorch, 0⟩, ⟨9, 7, 0, .hSyncWidth, 0⟩, ⟨10, 7, 4, .vFrontPorch, 0⟩, ⟨10, 3, 0, .vSyncWidth, 0⟩,
    ⟨11, 7, 6, .hFrontPorch, 8⟩, ⟨11, 5, 4, .hSyncWidth, 8⟩, ⟨11, 3, 2, .vFrontPorch, 8⟩, ⟨11, 1, 0, .vSyncWidth, 8⟩] ++
  [⟨12, 7, 0, .hSize, 0⟩, ⟨13, 7, 0, .vSize, 0⟩, ⟨14, 7, 4, .hSize, 8⟩, ⟨14, 3, 0, .vSize, 8⟩,
    ⟨15, 7, 0, .hBorder, 0⟩, ⟨16, 7, 0, .vBorder, 0⟩, ⟨17, 7, 0, .features, 0⟩]

/-- The number of bits a row moves. -/
def LayoutRow.width (r : LayoutRow) : Nat := r.hi - r.lo + 1

/-- Whether a row reads bit `bit` of byte `byte`. -/
def LayoutRow.reads (r : LayoutRow) (byte : Fin 18) (bit : Nat) : Bool :=
  r.byte = byte && r.lo ≤ bit && bit ≤ r.hi

/-- What a row contributes to its field, as a number. -/
def LayoutRow.part (r : LayoutRow) (rec : Record) : Nat :=
  ((rec[r.byte].toNat >>> r.lo) % 2 ^ r.width) <<< r.resultLo

/-- The field extractor made from the table: the OR of the parts of the field's rows (rules R72, R84). -/
def extractField (f : Field) (rec : Record) : Nat :=
  (layout.filter fun r => r.field = f).foldl (fun acc r => acc ||| r.part rec) 0

/-- The same field as the formulas of rules R101 to R114 give it (`raw` before its multiplication by 10). -/
def computedField (f : Field) (rec : Record) : Nat :=
  match f with
  | .raw => (pixelClockRaw rec).toNat
  | .hActive => (hActive rec).toNat
  | .hBlanking => (hBlanking rec).toNat
  | .vActive => (vActive rec).toNat
  | .vBlanking => (vBlanking rec).toNat
  | .hFrontPorch => (hFrontPorch rec).toNat
  | .hSyncWidth => (hSyncWidth rec).toNat
  | .vFrontPorch => (vFrontPorch rec).toNat
  | .vSyncWidth => (vSyncWidth rec).toNat
  | .hSize => (hSize rec).toNat
  | .vSize => (vSize rec).toNat
  | .hBorder => (hBorder rec).toNat
  | .vBorder => (vBorder rec).toNat
  | .features => (features rec).toNat

end Sys2Proof.Machine
end

