-- ==== Sys2Proof/Machine/Listing.lean ====
section
/-!
DEFINITION. The listing spellings and macros of rules R82 and R83, as the inputs a host issues, and the offsets of the
records in the 128-byte block (rule R58), which the host uses and the block does not know.
-/
namespace Sys2Proof.Machine

/-- A line of a listing: a spelling of rule R82 or a macro of rule R83. -/
inductive Line where
  /-- `NOP`. -/
  | nop
  /-- `START DTD`. -/
  | startDtd
  /-- `START VEN`. -/
  | startVen
  /-- `PUSH 0xNN`. -/
  | push (b : Byte)
  /-- `END`. -/
  | endBuffer
  /-- `RESET`: one step with `rst = 1`, no command word. -/
  | reset
  /-- `PUSHN b0 ... bn`. -/
  | pushN (bs : List Byte)
  /-- `DTD b0 ... b17`. -/
  | dtd (rec : Record)
  /-- `VEN hi lo`. -/
  | ven (hi lo : Byte)
  deriving DecidableEq, Repr

/-- The step of one `PUSH`. -/
def Input.push (b : Byte) : Input := Input.ofCmd (CmdWord.pushOf b)

/-- The steps a line stands for (rules R82, R83). -/
def Line.expand : Line → List Input
  | .nop => [Input.ofCmd 0x000]
  | .startDtd => [Input.ofCmd 0x100]
  | .startVen => [Input.ofCmd 0x101]
  | .push b => [Input.push b]
  | .endBuffer => [Input.ofCmd 0x300]
  | .reset => [Input.reset]
  | .pushN bs => bs.map Input.push
  | .dtd rec => Input.ofCmd 0x100 :: rec.toList.map Input.push
  | .ven hi lo => [Input.ofCmd 0x101, Input.push hi, Input.push lo]

/-- The steps of a whole listing. -/
def expandAll (lines : List Line) : List Input := lines.flatMap Line.expand

/-- The run of a list of inputs from a state: the left fold of the step function over it (rule R59). -/
def runInputs : List Input → State → Host.Outcome State Fault Refusal
  | [], s => .next s
  | i :: rest, s =>
    match cycle i.rst i.cmd s with
    | .next t => runInputs rest t
    | .fault f => .fault f
    | .refused r => .refused r

/-- Several instructions run one after another. -/
def execAll : List Instr → State → Host.Outcome State Fault Refusal
  | [], s => .next s
  | i :: rest, s =>
    match exec i s with
    | .next t => execAll rest t
    | .fault f => .fault f
    | .refused r => .refused r

/-- The offset of the vendor word in the 128-byte block (rule R58). -/
def vendorOffset : Nat := 8

/-- The offset of descriptor slot `k`, 0 to 3, in the 128-byte block: 54, 72, 90, 108 (rule R58). -/
def slotOffset (k : Fin 4) : Nat := 54 + dtdLen * k.val

/-- The offset in the block at which a failed record ran short: `err_pos` is relative to the record, and the host may
add the record's own offset (rules R23, R58). -/
def failureOffset (recordOffset : Nat) (s : State) : Nat := recordOffset + s.errPos.toNat

end Sys2Proof.Machine
end

