-- ==== Sys2Proof/Machine/Outputs.lean ====
section
/-!
DEFINITION. The output wires: what a host can see of the state, at all times (rule R29). `mode`, `pos` and `buf` are
not outputs (rule R31).
-/
namespace Sys2Proof.Machine

/-- The outputs of rule R29: `busy`, `err_incomplete`, `err_pos`, the two valid flags, and every register of both
banks. -/
structure Outputs where
  busy : Bool
  errIncomplete : Bool
  errPos : BitVec 5
  dtdValid : Bool
  venValid : Bool
  dtd : DtdBank
  ven : VenBank
  deriving DecidableEq, Repr

/-- The wires of a state; reading them changes nothing (rule R57). -/
def State.outputs (s : State) : Outputs :=
  { busy := s.mode.busy, errIncomplete := s.mode.errIncomplete, errPos := s.errPos
    dtdValid := s.dtdValid, venValid := s.venValid, dtd := s.dtd, ven := s.ven }

end Sys2Proof.Machine
end

