-- ==== Sys2Proof/Safety.lean ====
section
/-!
DEFINITION. What counts as a safe state and a good run: the invariant of every state that follows a reset step, the
verdicts of a run (rule R150), and what of a state a later step can depend on.
-/
namespace Sys2Proof.Machine

/-- What holds in every state after a reset step (rule R184: one reset step is all the start-up there is). -/
structure State.Inv (s : State) : Prop where
  /-- An open detailed timing record lacks at least one byte (rule R144). -/
  posDtd : s.mode = .dtd → s.pos.toNat < dtdLen
  /-- An open vendor word lacks at least one byte (rule R144). -/
  posVen : s.mode = .ven → s.pos.toNat < venLen
  /-- In `IDLE`, `pos` is 0 after reset, or the length of the record last closed (rule R22). -/
  posIdle : s.mode = .idle → s.pos.toNat = 0 ∨ s.pos.toNat = venLen ∨ s.pos.toNat = dtdLen
  /-- A failure recorded `pos`, and found a byte missing (rule R161). -/
  errFailed : s.mode = .failed → s.errPos = s.pos ∧ s.pos.toNat < dtdLen
  /-- Without a failure `err_pos` is 0 (rule R23). -/
  errZero : s.mode ≠ .failed → s.errPos = 0
  /-- A failure leaves no result available (rule R172). -/
  failedFlags : s.mode = .failed → s.dtdValid = false ∧ s.venValid = false
  /-- While a detailed timing record is open its bank is stale (rule R27). -/
  dtdOpen : s.mode = .dtd → s.dtdValid = false
  /-- While a vendor word is open its bank is stale (rule R28). -/
  venOpen : s.mode = .ven → s.venValid = false
  /-- A valid `dtd` bank is the whole result of one record (rules R27, R57). -/
  dtdResult : s.dtdValid = true → ∃ rec, s.dtd = dtdUnpack rec
  /-- A valid `ven` bank is the whole result of one word (rules R28, R57). -/
  venResult : s.venValid = true → ∃ v, s.ven = venUnpack v
  /-- Right after a detailed timing record the bank is the result of the 18 bytes in `buf` (rule R146). -/
  dtdFresh : s.mode = .idle → s.pos.toNat = dtdLen → s.dtdValid = true ∧ s.dtd = dtdUnpack s.buf
  /-- Right after a vendor word the bank is the result of the two bytes in `buf` (rule R147). -/
  venFresh : s.mode = .idle → s.pos.toNat = venLen → s.venValid = true ∧ s.ven = venUnpack (be16 s.buf[0] s.buf[1])

/-- A run is complete for a detailed timing record in the state it reached (rule R150). -/
def State.completeDtd (s : State) : Bool := s.dtdValid

/-- A run is complete for a vendor word in the state it reached (rule R150). -/
def State.completeVen (s : State) : Bool := s.venValid

/-- A run has failed in the state it reached (rule R150). -/
def State.runFailed (s : State) : Bool := s.mode.errIncomplete

/-- A run is unfinished in the state it reached: a record is open and nothing may be claimed of it (rule R150). -/
def State.unfinished (s : State) : Bool := s.mode.busy

/-- Two states that differ at most in bytes of `buf` that no rule reads before they are written again: all of `buf` when
no record is open, and the bytes from `pos` on when one is (rule R24). -/
structure State.SameButStale (s t : State) : Prop where
  mode : s.mode = t.mode
  pos : s.pos = t.pos
  errPos : s.errPos = t.errPos
  dtd : s.dtd = t.dtd
  ven : s.ven = t.ven
  dtdValid : s.dtdValid = t.dtdValid
  venValid : s.venValid = t.venValid
  inputs : s.inputs = t.inputs
  draws : s.draws = t.draws
  /-- The bytes of the open record that have arrived. -/
  arrived : s.mode.busy = true → ∀ (k : Nat) (h : k < 18), k < s.pos.toNat → s.buf[k] = t.buf[k]

end Sys2Proof.Machine
end

