-- ==== Sys2Proof/Certificates/Slice0/Obligations.lean ====
section
/-!
DEFINITION. The statements for the provers.

`cycle rst cmd s` is the spec's `step(S, rst, cmd)` (rule R140); `step` takes the next pending input of the state and
runs `cycle` on it. A statement about `cycle` or `exec` is about the block; one about `step` or `runInputs` also about
the model's queue of inputs (log entry 1).
-/

open Sys2Proof Sys2Proof.Machine

/-! ### Encodings -/

/-- Rule R80 and vectors S1 to S22 of `95_test_vectors.md`: words written out from the patterns decode to their
commands, don't-care bits set included, and a record and a vendor word decode to their unpacking. -/
def Obligations.WrittenOutWordsDecode : Prop :=
  decodeCmd 0b0000000000 = .nop ∧ decodeCmd 0b0011111111 = .nop ∧
  decodeCmd 0b0100000000 = .startDtd ∧ decodeCmd 0b0111111110 = .startDtd ∧
  decodeCmd 0b0100000001 = .startVen ∧ decodeCmd 0b0111111111 = .startVen ∧
  decodeCmd 0b1001100010 = .push 0x62 ∧ decodeCmd 0b1011111111 = .push 0xFF ∧
  decodeCmd 0b1100000000 = .endBuffer ∧ decodeCmd 0b1110100111 = .endBuffer ∧
  decode .ven16 [0x4C, 0x2D] = .ok (.venUnpack 0x4C2D) ∧
  decode .dtd18 [0x21, 0x39, 0x90, 0x30, 0x62, 0x1A, 0x27, 0x40, 0x68, 0xB0, 0x36, 0x00, 0xDA, 0x28, 0x11, 0x00, 0x00,
      0x1C] =
    .ok (.dtdUnpack #v[0x21, 0x39, 0x90, 0x30, 0x62, 0x1A, 0x27, 0x40, 0x68, 0xB0, 0x36, 0x00, 0xDA, 0x28, 0x11, 0x00,
      0x00, 0x1C])

/-- Rules R80 and R81: a word selects the row for which `(w & mask) = match`, the only operand is the byte of `PUSH`,
`b = cmd[7:0]`, the words per row are as many as the table says, and the canonical words are those of the table. -/
def Obligations.EveryCommandWordSelectsItsRow : Prop :=
  (∀ (w : CmdWord) (r : Row), r.format = .cmd10 →
    ((decodeCmd w).row = r ↔ w &&& r.matchMask.2 = r.matchMask.1)) ∧
  (∀ w : CmdWord, (decodeCmd w).row.format = .cmd10) ∧
  (∀ (w : CmdWord) (b : Byte), decodeCmd w = .push b → b.toNat = w.toNat % 256) ∧
  (∀ r n, (r, n) ∈ [(Row.nop, 256), (Row.startDtd, 128), (Row.startVen, 128), (Row.push, 256), (Row.endBuffer, 256)] →
    ((List.range 1024).filter fun w => (decodeCmd (BitVec.ofNat 10 w)).row = r).length = n) ∧
  (∀ i w, (i, w) ∈ [(Instr.nop, (0x000 : CmdWord)), (.startDtd, 0x100), (.startVen, 0x101), (.endBuffer, 0x300)] →
    encode i = cmdBytes w ∧ decodeCmd w = i) ∧
  (∀ b : Byte, encode (.push b) = cmdBytes (BitVec.ofNat 10 (0x200 + b.toNat)))

/-- Decode and encode agree, for every instruction and every operand: its bytes, read as its own row, give it back. The
rows of one record format share their encoding (rule R84), so read by format alone a result row's bytes give the whole
unpacking of the same record or word. The byte form of a command word is the model's choice (log entry 7). -/
def Obligations.DecodingAnEncodedInstructionGivesItBack : Prop :=
  (∀ i : Instr, i.wf = true → decodeAs i.row (encode i) = .ok i) ∧
  (∀ i : Instr, i.row.format = .cmd10 → decode .cmd10 (encode i) = .ok i) ∧
  (∀ (i : Instr) (rec : Record), i.row.format = .dtd18 → encode i = rec.toList →
    decode .dtd18 (encode i) = .ok (.dtdUnpack rec)) ∧
  (∀ (i : Instr) (v : VenWord), i.row.format = .ven16 → encode i = venBytes v →
    decode .ven16 (encode i) = .ok (.venUnpack v))

/-- The other direction: bytes that decode are the encoding of what they decode to (every bit of a record and of a vendor
word, the bits the row reads of a command word), and bytes of another length than the format's are rejected by name. That
a command is exactly two bytes with nothing above bit 9 is the model's choice (log entry 7): the spec gives a command word
10 bits and no byte form. -/
def Obligations.BytesThatDecodeAreTheEncoding : Prop :=
  (∀ f bytes i, f ≠ .cmd10 → decode f bytes = .ok i → i.row.format = f ∧ encode i = bytes) ∧
  (∀ bytes i, decode .cmd10 bytes = .ok i → i.row.format = .cmd10 ∧
    ∃ w w', cmdOfBytes bytes = .ok w ∧ cmdOfBytes (encode i) = .ok w' ∧ decodeCmd w = i ∧ decodeCmd w' = i ∧
      w &&& i.row.matchMask.2 = w' &&& i.row.matchMask.2) ∧
  (∀ f bytes, bytes.length ≠ f.bytes → decode f bytes = .error .wrongLength) ∧
  (∀ f bytes, bytesFit f bytes = true → ∃ i, decode f bytes = .ok i)

/-! ### The step -/

/-- A step runs the decoded command: with a pending `(0, cmd)`, `step` is `exec` of what `cmd` decodes to, on the state
whose pending inputs are the rest (rule R140; that the inputs stand in State is log entry 1). The second clause is about
the model's own answers to the host: that a 16-bit number below 1024 is read as a command (log entry 7) and that
`withFetchWord` puts it in front of the pending inputs (log entry 6) are the model's choices. -/
def Obligations.StepRunsTheDecodedCommand : Prop :=
  (∀ (s : State) (w : CmdWord) (rest : List Input), s.inputs = Input.ofCmd w :: rest →
    step s = exec (decodeCmd w) (s.withInputs rest)) ∧
  (∀ (s : State) (w : Nat), w < 1024 →
    decodeTableWord 16 w = some (decodeCmd (BitVec.ofNat 10 w)) ∧
    step (s.withFetchWord 16 w) = exec (decodeCmd (BitVec.ofNat 10 w)) s)

/-- A placed record or vendor word is unpacked by the very next step, and with it happens what rules R146 and R147 add:
`buf`, `pos`, the valid flag, and `mode <- IDLE`. How a record is placed (log entry 6) and that the unpacking is an
instruction of its own (log entry 2) are the model's choices. -/
def Obligations.StepRunsTheDataOperations : Prop :=
  (∀ (s : State) (rec : Record), ∃ t, exec (.dtdUnpack rec) s = .next t ∧
    step (s.placeRecord rec) = .next { t with mode := .idle, pos := 18, buf := rec, dtdValid := true }) ∧
  (∀ (s : State) (v : VenWord), ∃ t, exec (.venUnpack v) s = .next t ∧
    step (s.placeVen v) = .next
      { t with
        mode := .idle, pos := 2, venValid := true
        buf := (s.buf.set 0 (v.extractLsb' 8 8)).set 1 (v.extractLsb' 0 8) })

/-- The model's step stops in one case only: the host has issued no further step (rule R150), and then with the fault
named for it. Otherwise it answers a next state. -/
def Obligations.StepStopsOnlyWhenTheHostDoes : Prop :=
  (∀ s : State, s.inputs = [] → step s = .fault .runOver) ∧
  (∀ s : State, s.inputs ≠ [] → ∃ t, step s = .next t)

/-- Rule R140: the step function is total, and this table is its dispatch. -/
def Obligations.StepFunctionIsTheDispatchTable : Prop :=
  ∀ (s : State) (w : CmdWord),
    cycle true w s = .next s.resetStep ∧
    cycle false w s = .next
      (match s.mode, decodeCmd w with
      | .failed, _ => s
      | .idle, .startDtd => { s with mode := .dtd, pos := 0, dtdValid := false }
      | .idle, .startVen => { s with mode := .ven, pos := 0, venValid := false }
      | .dtd, .push b => s.pushDtd b
      | .ven, .push b => s.pushVen b
      | .dtd, .endBuffer => { s with mode := .failed, errPos := s.pos, dtdValid := false, venValid := false }
      | .ven, .endBuffer => { s with mode := .failed, errPos := s.pos, dtdValid := false, venValid := false }
      | _, _ => s)

/-- Rule R59: a run is the left fold of the step function over the list of inputs. Stepping the machine through its
pending inputs, one step each, gives that fold. -/
def Obligations.RunIsTheFoldOfTheInputs : Prop :=
  ∀ (s : State) (inputs : List Input),
    Host.Core.run Sys2Proof.core inputs.length (s.withInputs inputs) = runInputs inputs (s.withInputs [])

/-! ### Reset -/

/-- Rules R33 and R180: a reset step writes the control registers and flags, whatever the command and whatever the state
(any state at all, power-on garbage and `FAILED` included), so `busy` and `err_incomplete` are 0; the command is not
looked at. Of the data registers, which take `UNSPEC` values, the rules fix nothing. -/
def Obligations.ResetWritesTheControlRegisters : Prop :=
  ∀ (s : State) (w : CmdWord), ∃ t, cycle true w s = .next t ∧
    t.mode = .idle ∧ t.pos = 0 ∧ t.errPos = 0 ∧ t.dtdValid = false ∧ t.venValid = false ∧
    t.outputs.busy = false ∧ t.outputs.errIncomplete = false ∧
    ∀ w' : CmdWord, cycle true w' s = .next t

/-- Rule R183: a reset inside a record abandons it, a reset in `FAILED` leaves it, a reset when results are valid discards
them. No commit happens and no failure is recorded; the state reached is closed: a `PUSH` or an `END` right after the
reset finds no record open and changes nothing, however many bytes had arrived. The bytes pushed and the results are
gone: every data register takes a free value of this reset's own draw, and the inputs still pending stay (the model's
own fields, log entries 1, 3 and 12). -/
def Obligations.ResetAbandonsTheOpenRecord : Prop :=
  ∀ (s t : State) (w : CmdWord), cycle true w s = .next t →
    t.mode = .idle ∧ t.errPos = 0 ∧ t.outputs.errIncomplete = false ∧ t.dtdValid = false ∧ t.venValid = false ∧
    (∀ b : Byte, exec (.push b) t = .next t) ∧ exec .endBuffer t = .next t ∧
    t.buf = freeBuf s.draws ∧ t.dtd = freeDtd s.draws ∧ t.ven = freeVen s.draws ∧ t.draws = s.draws + 1 ∧
    t.inputs = s.inputs

/-- Rule R184: one reset step is all the start-up there is. From any state whatever, the power-on state of rule R181
included, it leaves a state that meets the invariant. -/
def Obligations.AnyResetEstablishesTheInvariant : Prop :=
  (∀ (s t : State) (w : CmdWord), cycle true w s = .next t → t.Inv) ∧
  (∀ (draw : Nat) (inputs : List Input) (w : CmdWord), ∃ t, cycle true w (State.powerOn draw inputs) = .next t ∧ t.Inv)

/-- The invariant holds in the state after reset. -/
def Obligations.ResetStateMeetsTheInvariant : Prop := State.reset.Inv

/-- Every step keeps the invariant: the position never passes the open record's length, `err_pos` is 0 without a failure
and `pos` with one, a failure leaves no valid result, an open record's bank is stale, and a valid bank is the whole
result of one record. -/
def Obligations.EveryStepKeepsTheInvariant : Prop :=
  ∀ s t : State, s.Inv → step s = .next t → t.Inv

/-! ### The commands -/

/-- Rule R141: `NOP` changes no register in any mode, and any number of `NOP` steps have no effect. -/
def Obligations.NopsHaveNoEffect : Prop :=
  (∀ s : State, exec .nop s = .next s) ∧
  (∀ (s : State) (ws : List CmdWord), (∀ w ∈ ws, decodeCmd w = .nop) → runInputs (ws.map Input.ofCmd) s = .next s)

/-- Rule R142: `START DTD` in `IDLE` opens a detailed timing record and clears `dtd_valid`; nothing else changes. In any
other mode it changes nothing. -/
def Obligations.StartDtdOpensARecord : Prop :=
  (∀ s : State, s.mode = .idle → exec .startDtd s = .next { s with mode := .dtd, pos := 0, dtdValid := false }) ∧
  (∀ s : State, s.mode ≠ .idle → exec .startDtd s = .next s)

/-- Rule R143: `START VEN` in `IDLE` opens a vendor word and clears `ven_valid`; nothing else changes. In any other mode
it changes nothing. -/
def Obligations.StartVenOpensAWord : Prop :=
  (∀ s : State, s.mode = .idle → exec .startVen s = .next { s with mode := .ven, pos := 0, venValid := false }) ∧
  (∀ s : State, s.mode ≠ .idle → exec .startVen s = .next s)

/-- Rule R144: an accepted `PUSH b` writes `buf[pos]` and no other byte, adds 1 to `pos`, and with the last byte of the
record commits it and returns to `IDLE`; every other register keeps its value. In `IDLE` and `FAILED` it changes
nothing. -/
def Obligations.PushTakesTheNextByte : Prop :=
  (∀ (s : State) (b : Byte) (len : Nat), (s.mode = .dtd ∧ len = 18) ∨ (s.mode = .ven ∧ len = 2) → s.pos.toNat < 18 →
    ∃ t, exec (.push b) s = .next t ∧
      (∀ (k : Nat) (h : k < 18), t.buf[k] = if k = s.pos.toNat then b else s.buf[k]) ∧
      t.pos.toNat = s.pos.toNat + 1 ∧
      (s.pos.toNat + 1 ≠ len → t = { s with buf := t.buf, pos := t.pos }) ∧
      (s.pos.toNat + 1 = len → s.mode = .dtd →
        t = { s with buf := t.buf, pos := t.pos, mode := .idle, dtd := dtdUnpack t.buf, dtdValid := true }) ∧
      (s.pos.toNat + 1 = len → s.mode = .ven →
        t = { s with buf := t.buf, pos := t.pos, mode := .idle, ven := venUnpack (be16 t.buf[0] t.buf[1])
                     venValid := true })) ∧
  (∀ (s : State) (b : Byte), s.mode = .idle ∨ s.mode = .failed → exec (.push b) s = .next s)

/-- The corner that rule R144 says no run after a reset reaches: a record open with `pos` past the last register of `buf`
(possible only before the first reset, rule R181). The `PUSH` still completes, and what the rules fix of it holds: `pos`
advances by 1 where its register can hold that, nothing is committed, and no other register but `buf` changes. That `buf`
(and `pos` at 31) then take free values is the model's choice (log entry 5). -/
def Obligations.PushPastTheBufferStillCompletes : Prop :=
  ∀ (s : State) (b : Byte), s.mode = .dtd ∨ s.mode = .ven → 18 ≤ s.pos.toNat →
    ∃ t, exec (.push b) s = .next t ∧ t = { s with buf := t.buf, pos := t.pos, draws := s.draws + 1 } ∧
      (s.pos.toNat < 31 → t.pos.toNat = s.pos.toNat + 1)

/-- Rule R146: the `PUSH` that brings the 18th byte writes the whole `dtd` bank with `DTD_UNPACK` of the 18 bytes in the
order pushed, sets `dtd_valid`, and closes the record, in the one step; the `ven` bank and its flag are untouched. In no
other step does `dtd_valid` rise. -/
def Obligations.EighteenthByteCommitsTheRecord : Prop :=
  (∀ (s : State) (rec : Record), s.mode = .dtd → s.pos = 17 → (∀ (k : Nat) (h : k < 17), s.buf[k] = rec[k]) →
    exec (.push rec[17]) s =
      .next { s with mode := .idle, pos := 18, buf := rec, dtd := dtdUnpack rec, dtdValid := true }) ∧
  (∀ (s t : State) (rst : Bool) (w : CmdWord), cycle rst w s = .next t → s.dtdValid = false → t.dtdValid = true →
    rst = false ∧ s.mode = .dtd ∧ s.pos = 17 ∧ ∃ b, decodeCmd w = .push b)

/-- Rule R147: the `PUSH` that brings the 2nd byte writes the whole `ven` bank with `VEN_UNPACK` of the big-endian word,
sets `ven_valid`, and closes the word, in the one step; the `dtd` bank and its flag are untouched. In no other step does
`ven_valid` rise. -/
def Obligations.SecondByteCommitsTheVendorWord : Prop :=
  (∀ (s : State) (b : Byte) (v : VenWord), s.mode = .ven → s.pos = 1 → v.toNat = s.buf[0].toNat * 256 + b.toNat →
    exec (.push b) s =
      .next { s with mode := .idle, pos := 2, buf := s.buf.set 1 b, ven := venUnpack v, venValid := true }) ∧
  (∀ (s t : State) (rst : Bool) (w : CmdWord), cycle rst w s = .next t → s.venValid = false → t.venValid = true →
    rst = false ∧ s.mode = .ven ∧ s.pos = 1 ∧ ∃ b, decodeCmd w = .push b)

/-- Rule R145: `END` with a record open raises `Incomplete(pos)`, which is these four writes and nothing else (`pos`,
`buf` and both banks keep their values); with no record open it does nothing. -/
def Obligations.EndInsideARecordRaisesIncomplete : Prop :=
  (∀ s : State, s.mode = .dtd ∨ s.mode = .ven →
    exec .endBuffer s =
      .next { s with errPos := s.pos, mode := .failed, dtdValid := false, venValid := false }) ∧
  (∀ s : State, s.mode = .idle ∨ s.mode = .failed → exec .endBuffer s = .next s)

/-- Rule R161: `Incomplete` is raised by `END` with a record open, always, and by nothing else; it records the number of
bytes that had arrived (0 to 17, or 0 or 1), the outputs show it, and `pos`, `buf` and the result registers do not
change. -/
def Obligations.OnlyEndInsideARecordFails : Prop :=
  ∀ (s t : State) (rst : Bool) (w : CmdWord), s.Inv → s.mode ≠ .failed → cycle rst w s = .next t →
    (t.mode = .failed ↔ rst = false ∧ decodeCmd w = .endBuffer ∧ (s.mode = .dtd ∨ s.mode = .ven)) ∧
    (t.mode = .failed →
      t.errPos = s.pos ∧ (s.mode = .dtd → t.errPos.toNat ≤ 17) ∧ (s.mode = .ven → t.errPos.toNat ≤ 1) ∧
      t.outputs.errIncomplete = true ∧ t.outputs.busy = false ∧ t.outputs.dtdValid = false ∧
      t.outputs.venValid = false ∧ t.pos = s.pos ∧ t.buf = s.buf ∧ t.dtd = s.dtd ∧ t.ven = s.ven)

/-- Rule R148: a command the current mode does not accept changes no register and raises nothing. -/
def Obligations.IgnoredCommandsChangeNothing : Prop :=
  (∀ (s : State) (w : CmdWord), s.mode = .failed → cycle false w s = .next s) ∧
  (∀ (s : State) (w : CmdWord), s.mode = .idle → (∃ b, decodeCmd w = .push b) ∨ decodeCmd w = .endBuffer →
    cycle false w s = .next s) ∧
  (∀ (s : State) (w : CmdWord), s.mode = .dtd ∨ s.mode = .ven → decodeCmd w = .startDtd ∨ decodeCmd w = .startVen →
    cycle false w s = .next s)

/-- Rules R164 and R172: once `mode = FAILED`, no list of commands of any length changes the state, so `err_incomplete`
stays, `err_pos` keeps the value of the first and only failure and no valid flag rises; a reset leaves it. -/
def Obligations.FailureIsTerminal : Prop :=
  (∀ (s : State) (ws : List CmdWord), s.mode = .failed → runInputs (ws.map Input.ofCmd) s = .next s) ∧
  (∀ (s t : State) (w : CmdWord), s.mode = .failed → cycle true w s = .next t → t.mode = .idle)

/-! ### Whole-machine rules -/

/-- Rule R149: `mode` moves only along the arrows `IDLE` to `DTD` or `VEN`, back to `IDLE`, from either to `FAILED`, and
from anywhere to `IDLE` by reset; `pos` advances by exactly 1 per accepted `PUSH` and is set to 0 by an accepted
`START`, and moves in no other way. -/
def Obligations.ModeMovesOnlyAlongTheArrows : Prop :=
  (∀ (s t : State) (w : CmdWord), cycle false w s = .next t →
    t.mode = s.mode ∨ (s.mode, t.mode) ∈
      [(Mode.idle, Mode.dtd), (.dtd, .idle), (.idle, .ven), (.ven, .idle), (.dtd, .failed), (.ven, .failed)]) ∧
  (∀ (s t : State) (w : CmdWord), cycle true w s = .next t → t.mode = .idle) ∧
  (∀ (s t : State) (w : CmdWord), s.Inv → cycle false w s = .next t →
    (if s.mode.busy = true ∧ (decodeCmd w).row = .push then t.pos.toNat = s.pos.toNat + 1
     else if s.mode = .idle ∧ ((decodeCmd w).row = .startDtd ∨ (decodeCmd w).row = .startVen) then t.pos = 0
     else t.pos = s.pos))

/-- Rule R32: a result bank changes in exactly two kinds of step, its own commit and a reset. In every other step, one
that pushes bytes of the next record and one that clears its valid flag included, it keeps its value. -/
def Obligations.ResultBanksChangeOnlyAtCommitOrReset : Prop :=
  ∀ (s t : State) (w : CmdWord), cycle false w s = .next t →
    (t.dtd = s.dtd ∨
      (s.mode = .dtd ∧ s.pos = 17 ∧ ∃ b, decodeCmd w = .push b ∧ t.dtd = dtdUnpack (s.buf.set 17 b))) ∧
    (t.ven = s.ven ∨
      (s.mode = .ven ∧ s.pos = 1 ∧ ∃ b, decodeCmd w = .push b ∧ t.ven = venUnpack (be16 s.buf[0] b)))

/-- Rules R27, R28 and R186: a valid flag falls only by an accepted `START` of its own kind, a failing `END`, or a reset;
until then the result stays readable, the bank unchanged. -/
def Obligations.AResultStaysReadable : Prop :=
  ∀ (s t : State) (rst : Bool) (w : CmdWord), s.Inv → cycle rst w s = .next t →
    (s.dtdValid = true → (t.dtdValid = true ∧ t.dtd = s.dtd) ∨
      (t.dtdValid = false ∧ (rst = true ∨ (s.mode = .idle ∧ decodeCmd w = .startDtd) ∨
        (s.mode = .ven ∧ decodeCmd w = .endBuffer)))) ∧
    (s.venValid = true → (t.venValid = true ∧ t.ven = s.ven) ∨
      (t.venValid = false ∧ (rst = true ∨ (s.mode = .idle ∧ decodeCmd w = .startVen) ∨
        (s.mode = .dtd ∧ decodeCmd w = .endBuffer))))

/-- Rule R29: the outputs are the registers and the two functions of `mode`, and `busy` and `err_incomplete` are never
both 1. -/
def Obligations.OutputsShowTheRegisters : Prop :=
  ∀ s : State,
    (s.outputs.busy = true ↔ s.mode = .dtd ∨ s.mode = .ven) ∧ (s.outputs.errIncomplete = true ↔ s.mode = .failed) ∧
    s.outputs.errPos = s.errPos ∧ s.outputs.dtdValid = s.dtdValid ∧ s.outputs.venValid = s.venValid ∧
    s.outputs.dtd = s.dtd ∧ s.outputs.ven = s.ven ∧ ¬(s.outputs.busy = true ∧ s.outputs.errIncomplete = true)

/-- Rule R24: no rule reads a byte of `buf` that has not been pushed since the record was opened. Two states that differ
only in such bytes step alike: they still differ only so, and their outputs agree, so old bytes never reach the host. The
two stand at one draw, so a reset leaves both the same free values, which do not depend on what was in `buf` (the model's
choice, log entries 3 and 12). -/
def Obligations.StaleBytesNeverReachTheHost : Prop :=
  ∀ s t s' : State, s.Inv → s.SameButStale t → step s = .next s' →
    ∃ t', step t = .next t' ∧ s'.SameButStale t' ∧ s'.outputs = t'.outputs

/-- Rule R150: the verdicts. A failed run is complete for no record and is not unfinished, and while a record of a kind
is open the run is not complete for that kind. -/
def Obligations.VerdictsExcludeEachOther : Prop :=
  ∀ s : State, s.Inv →
    (s.runFailed = true → s.completeDtd = false ∧ s.completeVen = false ∧ s.unfinished = false) ∧
    (s.mode = .dtd → s.unfinished = true ∧ s.completeDtd = false) ∧
    (s.mode = .ven → s.unfinished = true ∧ s.completeVen = false)

/-- Rule R173: several instances share no state. A step of one leaves every other as it was, and gives it what it would
give alone. -/
def Obligations.InstancesShareNothing : Prop :=
  ∀ (all all' : List State) (k : Nat), stepNth all k = .next all' →
    (∀ j : Nat, j ≠ k → all'[j]? = all[j]?) ∧
    (∀ s : State, all[k]? = some s → ∃ t, step s = .next t ∧ all'[k]? = some t)

/-! ### Records as a whole -/

/-- Rules R53 and R83: from `IDLE`, the macro `DTD b0 ... b17` (one `START DTD` and 18 `PUSH`es) consumes exactly the 18
bytes and leaves their `DTD_UNPACK` in the bank with `dtd_valid = 1`, the block in `IDLE`, and everything else as it
was, whatever the buffer and the banks held before. -/
def Obligations.DtdMacroUnpacksItsRecord : Prop :=
  ∀ (s : State) (rec : Record), s.mode = .idle →
    runInputs (Line.dtd rec).expand s =
      .next { s with mode := .idle, pos := 18, buf := rec, dtd := dtdUnpack rec, dtdValid := true }

/-- Rules R53 and R83: from `IDLE`, the macro `VEN hi lo` consumes exactly the two bytes and leaves the `VEN_UNPACK` of
their big-endian word in the bank with `ven_valid = 1`, the block in `IDLE`, and everything else as it was. -/
def Obligations.VenMacroUnpacksItsWord : Prop :=
  ∀ (s : State) (hi lo : Byte), s.mode = .idle →
    runInputs (Line.ven hi lo).expand s =
      .next { s with mode := .idle, pos := 2, buf := (s.buf.set 0 hi).set 1 lo, ven := venUnpack (be16 hi lo)
                     venValid := true }

/-- The block's counterpart of the source's testable property 7 (`95_test_vectors.md` section 1.1): a detailed timing
record cut short after any number of bytes below 18 fails with that number in `err_pos`, and no result is available. -/
def Obligations.TruncatedRecordFails : Prop :=
  ∀ (s : State) (bytes : List Byte), s.mode = .idle → bytes.length < 18 →
    ∃ t, runInputs (expandAll [.startDtd, .pushN bytes, .endBuffer]) s = .next t ∧
      t.mode = .failed ∧ t.errPos.toNat = bytes.length ∧ t.dtdValid = false ∧ t.venValid = false ∧
      t.dtd = s.dtd ∧ t.ven = s.ven

/-! ### `DTD_UNPACK` -/

/-- `pixel_clock` is ten times the little-endian 16-bit raw value, exactly (the value: rule R101); nothing else changes:
that its row runs as an instruction of its own is the model's choice (log entry 2). -/
def Obligations.PixelClockIsTenTimesTheRawValue : Prop :=
  ∀ (rec : Record) (s : State), ∃ t, exec (.dtdPixelClock rec) s = .next t ∧
    t = { s with dtd := { s.dtd with pixelClock := t.dtd.pixelClock } } ∧
    t.dtd.pixelClock.toNat = (rec[0].toNat ||| rec[1].toNat <<< 8) * 10

/-- Each 12-bit field is its low byte OR its nibble of the shared byte shifted left by 8 (the values: rules R102 to R105,
R110 and R111); nothing but its own register changes: that each row runs as an instruction of its own is the model's
choice (log entry 2). -/
def Obligations.TwelveBitFieldsJoinAByteAndANibble : Prop :=
  ∀ (rec : Record) (s : State),
    (∃ t, exec (.dtdHActive rec) s = .next t ∧ t = { s with dtd := { s.dtd with hActive := t.dtd.hActive } } ∧
      t.dtd.hActive.toNat = rec[2].toNat ||| (rec[4].toNat / 16) <<< 8) ∧
    (∃ t, exec (.dtdHBlanking rec) s = .next t ∧ t = { s with dtd := { s.dtd with hBlanking := t.dtd.hBlanking } } ∧
      t.dtd.hBlanking.toNat = rec[3].toNat ||| (rec[4].toNat % 16) <<< 8) ∧
    (∃ t, exec (.dtdVActive rec) s = .next t ∧ t = { s with dtd := { s.dtd with vActive := t.dtd.vActive } } ∧
      t.dtd.vActive.toNat = rec[5].toNat ||| (rec[7].toNat / 16) <<< 8) ∧
    (∃ t, exec (.dtdVBlanking rec) s = .next t ∧ t = { s with dtd := { s.dtd with vBlanking := t.dtd.vBlanking } } ∧
      t.dtd.vBlanking.toNat = rec[6].toNat ||| (rec[7].toNat % 16) <<< 8) ∧
    (∃ t, exec (.dtdHSize rec) s = .next t ∧ t = { s with dtd := { s.dtd with hSize := t.dtd.hSize } } ∧
      t.dtd.hSize.toNat = rec[12].toNat ||| (rec[14].toNat / 16) <<< 8) ∧
    (∃ t, exec (.dtdVSize rec) s = .next t ∧ t = { s with dtd := { s.dtd with vSize := t.dtd.vSize } } ∧
      t.dtd.vSize.toNat = rec[13].toNat ||| (rec[14].toNat % 16) <<< 8)

/-- Each horizontal porch and sync field is its low byte OR its bit pair of `rec[11]` shifted left by 8 (the values: rules
R106 and R107); nothing but its own register changes: that each row runs as an instruction of its own is the model's
choice (log entry 2). -/
def Obligations.HorizontalPorchFieldsJoinAByteAndABitPair : Prop :=
  ∀ (rec : Record) (s : State),
    (∃ t, exec (.dtdHFrontPorch rec) s = .next t ∧
      t = { s with dtd := { s.dtd with hFrontPorch := t.dtd.hFrontPorch } } ∧
      t.dtd.hFrontPorch.toNat = rec[8].toNat ||| (rec[11].toNat / 64) <<< 8) ∧
    (∃ t, exec (.dtdHSyncWidth rec) s = .next t ∧
      t = { s with dtd := { s.dtd with hSyncWidth := t.dtd.hSyncWidth } } ∧
      t.dtd.hSyncWidth.toNat = rec[9].toNat ||| (rec[11].toNat / 16 % 4) <<< 8)

/-- Each vertical porch and sync field is its nibble of `rec[10]` OR its bit pair of `rec[11]` shifted left by 8 (not 4:
rule R8), so bits 7:4 of the result are 0 and 783 is the greatest value (the values: rules R108 and R109); nothing but its
own register changes: that each row runs as an instruction of its own is the model's choice (log entry 2). -/
def Obligations.VerticalPorchFieldsLeaveAGap : Prop :=
  ∀ (rec : Record) (s : State),
    (∃ t, exec (.dtdVFrontPorch rec) s = .next t ∧
      t = { s with dtd := { s.dtd with vFrontPorch := t.dtd.vFrontPorch } } ∧
      t.dtd.vFrontPorch.toNat = rec[10].toNat / 16 ||| (rec[11].toNat / 4 % 4) <<< 8 ∧
      t.dtd.vFrontPorch.extractLsb' 4 4 = 0 ∧ t.dtd.vFrontPorch.toNat ≤ 783) ∧
    (∃ t, exec (.dtdVSyncWidth rec) s = .next t ∧
      t = { s with dtd := { s.dtd with vSyncWidth := t.dtd.vSyncWidth } } ∧
      t.dtd.vSyncWidth.toNat = rec[10].toNat % 16 ||| (rec[11].toNat % 4) <<< 8 ∧
      t.dtd.vSyncWidth.extractLsb' 4 4 = 0 ∧ t.dtd.vSyncWidth.toNat ≤ 783)

/-- The borders and the features byte are copied, undoubled and uninterpreted, and no other result reads the features byte
(rules R112 to R114); nothing but the own register of each changes: that each row runs as an instruction of its own is the
model's choice (log entry 2). -/
def Obligations.BordersAndFeaturesAreCopied : Prop :=
  ∀ (rec : Record) (s : State),
    exec (.dtdHBorder rec) s = .next { s with dtd := { s.dtd with hBorder := rec[15] } } ∧
    exec (.dtdVBorder rec) s = .next { s with dtd := { s.dtd with vBorder := rec[16] } } ∧
    exec (.dtdFeatures rec) s = .next { s with dtd := { s.dtd with features := rec[17] } } ∧
    ∀ b : Byte, dtdUnpack (rec.set 17 b) = { dtdUnpack rec with features := b }

/-- `tag_nonzero` is 1 when either of the first two bytes is nonzero, which is exactly when `pixel_clock` is not 0 (the
value: rule R115); nothing else changes, and the operation completes on a zero tag as on any other: that its row runs as
an instruction of its own is the model's choice (log entry 2). -/
def Obligations.TagNonzeroTestsTheFirstTwoBytes : Prop :=
  ∀ (rec : Record) (s : State), ∃ t, exec (.dtdTagNonzero rec) s = .next t ∧
    t = { s with dtd := { s.dtd with tagNonzero := t.dtd.tagNonzero } } ∧
    (t.dtd.tagNonzero = true ↔ rec[0] ≠ 0 ∨ rec[1] ≠ 0) ∧
    (t.dtd.tagNonzero = true ↔ (dtdUnpack rec).pixelClock ≠ 0)

/-- `DTD_UNPACK` is its fifteen result rows together: running the rows one after another on the same record leaves what
the whole operation leaves, which is the `dtd` bank written and nothing else. That the rows run as instructions is the
model's choice (log entry 2). -/
def Obligations.DtdUnpackIsItsFifteenResults : Prop :=
  ∀ (rec : Record) (s : State), ∃ t, exec (.dtdUnpack rec) s = .next t ∧ t = { s with dtd := t.dtd } ∧
    execAll [.dtdPixelClock rec, .dtdHActive rec, .dtdHBlanking rec, .dtdVActive rec, .dtdVBlanking rec,
      .dtdHFrontPorch rec, .dtdHSyncWidth rec, .dtdVFrontPorch rec, .dtdVSyncWidth rec, .dtdHSize rec, .dtdVSize rec,
      .dtdHBorder rec, .dtdVBorder rec, .dtdFeatures rec, .dtdTagNonzero rec] s = .next t

/-- Rule R116: each result depends on the bytes named as its operands and on no other byte: changing any other byte of
the record leaves it as it was. -/
def Obligations.EachResultReadsOnlyItsOperands : Prop :=
  ∀ (rec : Record) (k : Fin 18) (b : Byte),
    let a := dtdUnpack rec
    let c := dtdUnpack (rec.set k b)
    (k ∉ [(0 : Fin 18), 1] → c.pixelClock = a.pixelClock ∧ c.tagNonzero = a.tagNonzero) ∧
    (k ∉ [(2 : Fin 18), 4] → c.hActive = a.hActive) ∧ (k ∉ [(3 : Fin 18), 4] → c.hBlanking = a.hBlanking) ∧
    (k ∉ [(5 : Fin 18), 7] → c.vActive = a.vActive) ∧ (k ∉ [(6 : Fin 18), 7] → c.vBlanking = a.vBlanking) ∧
    (k ∉ [(8 : Fin 18), 11] → c.hFrontPorch = a.hFrontPorch) ∧
    (k ∉ [(9 : Fin 18), 11] → c.hSyncWidth = a.hSyncWidth) ∧
    (k ∉ [(10 : Fin 18), 11] → c.vFrontPorch = a.vFrontPorch ∧ c.vSyncWidth = a.vSyncWidth) ∧
    (k ∉ [(12 : Fin 18), 14] → c.hSize = a.hSize) ∧ (k ∉ [(13 : Fin 18), 14] → c.vSize = a.vSize) ∧
    (k ≠ 15 → c.hBorder = a.hBorder) ∧ (k ≠ 16 → c.vBorder = a.vBorder) ∧ (k ≠ 17 → c.features = a.features)

/-- The results of `DTD_UNPACK` on vectors of the register widths are those computed on natural numbers: no operation
overflows its width, and each OR equals the sum of its parts (rule R117). It completes on every record in every state and
writes the `dtd` bank and nothing else, no valid flag: that it runs as an instruction of its own is the model's choice
(log entry 2). -/
def Obligations.ResultsAreTheNaturalNumbers : Prop :=
  (∀ low high : Nat, low < 256 → low ||| high <<< 8 = low + 256 * high) ∧
  ∀ (rec : Record) (s : State), ∃ t, exec (.dtdUnpack rec) s = .next t ∧ t = { s with dtd := t.dtd } ∧
    t.dtd.pixelClock.toNat = (rec[0].toNat + 256 * rec[1].toNat) * 10 ∧
    t.dtd.hActive.toNat = rec[2].toNat + 256 * (rec[4].toNat / 16) ∧
    t.dtd.hBlanking.toNat = rec[3].toNat + 256 * (rec[4].toNat % 16) ∧
    t.dtd.vActive.toNat = rec[5].toNat + 256 * (rec[7].toNat / 16) ∧
    t.dtd.vBlanking.toNat = rec[6].toNat + 256 * (rec[7].toNat % 16) ∧
    t.dtd.hFrontPorch.toNat = rec[8].toNat + 256 * (rec[11].toNat / 64) ∧
    t.dtd.hSyncWidth.toNat = rec[9].toNat + 256 * (rec[11].toNat / 16 % 4) ∧
    t.dtd.vFrontPorch.toNat = rec[10].toNat / 16 + 256 * (rec[11].toNat / 4 % 4) ∧
    t.dtd.vSyncWidth.toNat = rec[10].toNat % 16 + 256 * (rec[11].toNat % 4) ∧
    t.dtd.hSize.toNat = rec[12].toNat + 256 * (rec[14].toNat / 16) ∧
    t.dtd.vSize.toNat = rec[13].toNat + 256 * (rec[14].toNat % 16) ∧
    t.dtd.hBorder.toNat = rec[15].toNat ∧ t.dtd.vBorder.toNat = rec[16].toNat ∧
    t.dtd.features.toNat = rec[17].toNat ∧
    (t.dtd.tagNonzero = true ↔ rec[0].toNat + 256 * rec[1].toNat ≠ 0)

/-- Rule R71: the layout table, row by row, is what the formulas compute: for every field and record the extractor made
from the table's rows alone gives the field's value, and `pixel_clock` is ten times the `raw` of the table. -/
def Obligations.FormulasFollowTheLayoutTable : Prop :=
  (∀ (f : Field) (rec : Record), extractField f rec = computedField f rec) ∧
  (∀ rec : Record, (dtdUnpack rec).pixelClock.toNat = extractField .raw rec * 10)

/-- Rule R73: the rows of rule R71 cover every bit of the 18 bytes once, with no overlap and no gap, so no bit is reserved
or ignored, and `DTD_UNPACK` is injective. -/
def Obligations.EveryRecordBitReachesOneResultBit : Prop :=
  (∀ (byte : Fin 18) (bit : Fin 8), (layout.filter fun r => r.reads byte bit).length = 1) ∧
  (∀ rec rec' : Record, dtdUnpack rec = dtdUnpack rec' → rec = rec')

/-! ### `VEN_UNPACK` -/

/-- Rule R54: the vendor word is big-endian, the first byte pushed the more significant; `pixel_clock_raw` is
little-endian, the first byte pushed the less significant. -/
def Obligations.ByteOrderIsFixedPerField : Prop :=
  (∀ first second : Byte, (be16 first second).toNat = first.toNat <<< 8 ||| second.toNat) ∧
  (∀ rec : Record, (pixelClockRaw rec).toNat = rec[0].toNat ||| rec[1].toNat <<< 8)

/-- Each letter is its 5-bit code plus 64, the codes at shifts 10, 5 and 0 (the values: rules R131 to R133; the 64: rule
R7, log entry 9); nothing but its own register changes: that each row runs as an instruction of its own is the model's
choice (log entry 2). -/
def Obligations.LettersAreTheirCodesPlus64 : Prop :=
  ∀ (v : VenWord) (s : State),
    (∃ t, exec (.venLetter0 v) s = .next t ∧ t = { s with ven := { s.ven with letter0 := t.ven.letter0 } } ∧
      t.ven.letter0.toNat = v.toNat / 1024 % 32 + 64) ∧
    (∃ t, exec (.venLetter1 v) s = .next t ∧ t = { s with ven := { s.ven with letter1 := t.ven.letter1 } } ∧
      t.ven.letter1.toNat = v.toNat / 32 % 32 + 64) ∧
    (∃ t, exec (.venLetter2 v) s = .next t ∧ t = { s with ven := { s.ven with letter2 := t.ven.letter2 } } ∧
      t.ven.letter2.toNat = v.toNat % 32 + 64)

/-- `in_range` is 1 when each of the three codes is at least 1 and at most 26, that is when each letter is in 65 to 90,
else 0, and no code is a failure (rule R134); nothing else changes: that its row runs as an instruction of its own is the
model's choice (log entry 2). -/
def Obligations.InRangeTestsAllThreeCodes : Prop :=
  ∀ (v : VenWord) (s : State), ∃ t, exec (.venInRange v) s = .next t ∧
    t = { s with ven := { s.ven with inRange := t.ven.inRange } } ∧
    (t.ven.inRange = true ↔
      (1 ≤ v.toNat / 1024 % 32 ∧ v.toNat / 1024 % 32 ≤ 26) ∧ (1 ≤ v.toNat / 32 % 32 ∧ v.toNat / 32 % 32 ≤ 26) ∧
        (1 ≤ v.toNat % 32 ∧ v.toNat % 32 ≤ 26)) ∧
    (t.ven.inRange = true ↔
      ∀ l ∈ [(venUnpack v).letter0, (venUnpack v).letter1, (venUnpack v).letter2], 65 ≤ l.toNat ∧ l.toNat ≤ 90)

/-- `VEN_UNPACK` gives its four results on every word and does not read bit 15 (rule R130). It completes in every state,
writes the `ven` bank and nothing else, no valid flag, and is its four result rows together: that it and the rows run as
instructions is the model's choice (log entry 2). -/
def Obligations.VenUnpackDoesNotReadBit15 : Prop :=
  ∀ (v : VenWord) (s : State), ∃ t, exec (.venUnpack v) s = .next t ∧ t = { s with ven := t.ven } ∧
    t.ven.letter0.toNat = v.toNat / 1024 % 32 + 64 ∧ t.ven.letter1.toNat = v.toNat / 32 % 32 + 64 ∧
    t.ven.letter2.toNat = v.toNat % 32 + 64 ∧
    (t.ven.inRange = true ↔ ∀ code ∈ [v.toNat / 1024 % 32, v.toNat / 32 % 32, v.toNat % 32], 1 ≤ code ∧ code ≤ 26) ∧
    execAll [.venLetter0 v, .venLetter1 v, .venLetter2 v, .venInRange v] s = .next t ∧
    exec (.venUnpack (v &&& 0x7FFF)) s = .next t

/-- Rule R135: the sum of a 5-bit code and 64 is at most 95, never carries, and equals `0x40 | code`. -/
def Obligations.LetterSumsNeverCarry : Prop :=
  ∀ (v : VenWord) (letter : BitVec 8) (code : VenWord),
    (letter, code) ∈
      [((venUnpack v).letter0, v >>> 10 &&& 0x1F), ((venUnpack v).letter1, v >>> 5 &&& 0x1F),
        ((venUnpack v).letter2, v &&& 0x1F)] →
    letter.toNat = code.toNat + 64 ∧ letter = 0x40 ||| code.setWidth 8 ∧ letter.toNat ≤ 95

/-- Rule R136: packing any three letters in 'A' to 'Z' (65 to 90) by the inverse formula of rule R77 and unpacking the
word gives the letters back with `in_range = 1`, with bit 15 of the word clear or set. -/
def Obligations.VendorRoundTrip : Prop :=
  ∀ l0 l1 l2 : BitVec 8, (∀ l ∈ [l0, l1, l2], 65 ≤ l.toNat ∧ l.toNat ≤ 90) →
    venUnpack (venPack l0 l1 l2) = { letter0 := l0, letter1 := l1, letter2 := l2, inRange := true } ∧
    venUnpack (0x8000 ||| venPack l0 l1 l2) = { letter0 := l0, letter1 := l1, letter2 := l2, inRange := true }

/-! ### What a commit leaves in the result registers

The values of the rules through the block's own step, the accepted `PUSH` of the last byte (rules R146, R147).
-/

/-- Rules R101 to R105, R110 and R111: a committed record of any 18 bytes leaves `pixel_clock`, ten times the
little-endian raw value, and each 12-bit field, its low byte OR its nibble of the shared byte shifted left by 8. -/
def Obligations.CommitWritesTheClockAndTheTwelveBitFields : Prop :=
  ∀ (s : State) (rec : Record), s.mode = .dtd → s.pos = 17 → (∀ (k : Nat) (h : k < 17), s.buf[k] = rec[k]) →
    ∃ t, exec (.push rec[17]) s = .next t ∧
      t.dtd.pixelClock.toNat = (rec[0].toNat ||| rec[1].toNat <<< 8) * 10 ∧
      t.dtd.hActive.toNat = rec[2].toNat ||| (rec[4].toNat / 16) <<< 8 ∧
      t.dtd.hBlanking.toNat = rec[3].toNat ||| (rec[4].toNat % 16) <<< 8 ∧
      t.dtd.vActive.toNat = rec[5].toNat ||| (rec[7].toNat / 16) <<< 8 ∧
      t.dtd.vBlanking.toNat = rec[6].toNat ||| (rec[7].toNat % 16) <<< 8 ∧
      t.dtd.hSize.toNat = rec[12].toNat ||| (rec[14].toNat / 16) <<< 8 ∧
      t.dtd.vSize.toNat = rec[13].toNat ||| (rec[14].toNat % 16) <<< 8

/-- Rules R106 to R109 and R112 to R115: a committed record of any 18 bytes leaves the porch and sync fields, the vertical
ones with bits 7:4 zero and at most 783, the borders and the features byte as they came, and `tag_nonzero`, which is 1
exactly when one of the first two bytes is nonzero, that is when `pixel_clock` is not 0. Another last byte changes
`features` (and `buf[17]`) and nothing else. -/
def Obligations.CommitWritesThePorchesTheCopiesAndTheTag : Prop :=
  ∀ (s : State) (rec : Record), s.mode = .dtd → s.pos = 17 → (∀ (k : Nat) (h : k < 17), s.buf[k] = rec[k]) →
    ∃ t, exec (.push rec[17]) s = .next t ∧
      t.dtd.hFrontPorch.toNat = rec[8].toNat ||| (rec[11].toNat / 64) <<< 8 ∧
      t.dtd.hSyncWidth.toNat = rec[9].toNat ||| (rec[11].toNat / 16 % 4) <<< 8 ∧
      t.dtd.vFrontPorch.toNat = rec[10].toNat / 16 ||| (rec[11].toNat / 4 % 4) <<< 8 ∧
      t.dtd.vFrontPorch.extractLsb' 4 4 = 0 ∧ t.dtd.vFrontPorch.toNat ≤ 783 ∧
      t.dtd.vSyncWidth.toNat = rec[10].toNat % 16 ||| (rec[11].toNat % 4) <<< 8 ∧
      t.dtd.vSyncWidth.extractLsb' 4 4 = 0 ∧ t.dtd.vSyncWidth.toNat ≤ 783 ∧
      t.dtd.hBorder = rec[15] ∧ t.dtd.vBorder = rec[16] ∧ t.dtd.features = rec[17] ∧
      (t.dtd.tagNonzero = true ↔ rec[0] ≠ 0 ∨ rec[1] ≠ 0) ∧ (t.dtd.tagNonzero = true ↔ t.dtd.pixelClock ≠ 0) ∧
      ∀ b : Byte, exec (.push b) s =
        .next { t with buf := t.buf.set 17 b, dtd := { t.dtd with features := b } }

/-- Rules R130 to R134: a committed vendor word of any two bytes, `v = (first << 8) | second`, leaves each letter, its
5-bit code plus 64, and `in_range`, which is 1 exactly when all three codes are in 1 to 26. No code is a failure: the
block is back in `IDLE`. Bit 15 of the word, bit 7 of the first byte, has no effect on the results. -/
def Obligations.CommitWritesTheLettersAndTheRange : Prop :=
  ∀ (s : State) (second : Byte) (v : Nat), s.mode = .ven → s.pos = 1 → v = s.buf[0].toNat <<< 8 ||| second.toNat →
    ∃ t, exec (.push second) s = .next t ∧ t.mode = .idle ∧
      t.ven.letter0.toNat = v / 1024 % 32 + 64 ∧ t.ven.letter1.toNat = v / 32 % 32 + 64 ∧
      t.ven.letter2.toNat = v % 32 + 64 ∧
      (t.ven.inRange = true ↔ ∀ code ∈ [v / 1024 % 32, v / 32 % 32, v % 32], 1 ≤ code ∧ code ≤ 26) ∧
      ∃ t', exec (.push second) { s with buf := s.buf.set 0 (s.buf[0] ^^^ 0x80) } = .next t' ∧ t'.ven = t.ven
end

