-- ==== Sys2Proof/Laws/Bits.lean ====
section
/-!
SUPPORT. Once for each operand form, its value as a natural number, and that the byte forms of the encoder come back.
-/
namespace Sys2Proof

theorem recordOfBytes_toList (rec : Record) : recordOfBytes rec.toList = .ok rec := by
  simp [recordOfBytes, Vector.toList]

/-- A vendor word is the big-endian word of its two bytes. -/
theorem be16_of_bytes (v : VenWord) : be16 (v.extractLsb' 8 8) (v.extractLsb' 0 8) = v := by
  unfold be16
  ext i hi
  simp only [BitVec.getElem_or, BitVec.getElem_shiftLeft, BitVec.getElem_setWidth, BitVec.getLsbD_extractLsb',
    Nat.zero_add]
  by_cases h : i < 8
  · simp [h, BitVec.getLsbD_eq_getElem hi]
  · simp [h, show i - 8 < 8 by omega, show 8 + (i - 8) = i by omega, BitVec.getLsbD_eq_getElem hi]

theorem venOfBytes_venBytes (v : VenWord) : venOfBytes (venBytes v) = .ok v := by
  simp [venOfBytes, venBytes, be16_of_bytes]

/-- The two bytes of a big-endian word are the bytes it was made of. -/
theorem venBytes_be16 (first second : Byte) : venBytes (be16 first second) = [first, second] := by
  simp only [venBytes, be16, List.cons.injEq, and_true]
  constructor <;> ext i hi
  · simp [show 8 + i < 16 by omega, BitVec.getLsbD_eq_getElem hi]
  · simp [hi, show i < 16 by omega]

theorem be16_toNat (first second : Byte) : (be16 first second).toNat = first.toNat * 256 + second.toNat := by
  have ha := first.isLt
  have hb := second.isLt
  simp only [be16, BitVec.toNat_or, BitVec.toNat_shiftLeft, BitVec.toNat_setWidth]
  rw [Nat.mod_eq_of_lt (a := first.toNat) (by omega), Nat.mod_eq_of_lt (a := second.toNat) (by omega),
    Nat.mod_eq_of_lt (by rw [Nat.shiftLeft_eq]; omega), ← Nat.shiftLeft_add_eq_or_of_lt (by omega), Nat.shiftLeft_eq]

namespace Machine

theorem le16_toNat (first second : Byte) : (le16 first second).toNat = first.toNat + 256 * second.toNat := by
  have : le16 first second = be16 second first := by simp [le16, be16, BitVec.or_comm]
  rw [this, be16_toNat]; omega

theorem hiNibble_toNat (b : Byte) : (hiNibble b).toNat = b.toNat / 16 := by
  have := b.isLt
  simp [hiNibble, BitVec.extractLsb'_toNat, Nat.shiftRight_eq_div_pow]; omega

theorem loNibble_toNat (b : Byte) : (loNibble b).toNat = b.toNat % 16 := by
  simp [loNibble, BitVec.extractLsb'_toNat]

theorem bitPair_toNat (b : Byte) (lo : Nat) : (bitPair b lo).toNat = b.toNat / 2 ^ lo % 4 := by
  simp [bitPair, BitVec.extractLsb'_toNat, Nat.shiftRight_eq_div_pow]

/-- The reassembly pattern loses no bit: the parts lie side by side, so the OR is their sum (rule R117). -/
theorem join_toNat {n m w : Nat} (low : BitVec n) (high : BitVec m) (hn : n ≤ 8) (hw : 8 + m ≤ w) :
    (join w low high).toNat = low.toNat + 256 * high.toNat := by
  have h1 : low.toNat < 2 ^ 8 := lt_of_lt_of_le low.isLt (Nat.pow_le_pow_right (by decide) hn)
  have h2 : 2 ^ 8 * 2 ^ m ≤ 2 ^ w := by rw [← Nat.pow_add]; exact Nat.pow_le_pow_right (by decide) hw
  have h3 := high.isLt
  have h4 : 2 ^ 8 * (high.toNat + 1) ≤ 2 ^ 8 * 2 ^ m := Nat.mul_le_mul_left _ h3
  simp only [join, hiShift, BitVec.toNat_or, BitVec.toNat_shiftLeft, BitVec.toNat_setWidth]
  rw [Nat.mod_eq_of_lt (a := low.toNat) (by omega), Nat.mod_eq_of_lt (a := high.toNat) (by omega),
    Nat.mod_eq_of_lt (by rw [Nat.shiftLeft_eq]; omega), Nat.or_comm, ← Nat.shiftLeft_add_eq_or_of_lt (by omega),
    Nat.shiftLeft_eq]
  omega

theorem letterCode_toNat (v : VenWord) (shift : Nat) : (letterCode v shift).toNat = v.toNat / 2 ^ shift % 32 := by
  simp only [letterCode, BitVec.toNat_and, BitVec.toNat_ushiftRight, Nat.shiftRight_eq_div_pow]
  exact Nat.and_two_pow_sub_one_eq_mod _ 5

theorem charCode_toNat (code : VenWord) (h : code.toNat < 32) : (charCode code).toNat = code.toNat + 64 := by
  simp only [charCode, ordA, BitVec.toNat_add, BitVec.toNat_setWidth, BitVec.toNat_ofNat]; omega

end Machine
end Sys2Proof
end

