-- ==== Sys2Proof/Laws/State.lean ====
section
/-! SUPPORT. One lemma per field per update: what each named operation leaves in each register. -/
namespace Sys2Proof.Machine.State

variable (s : State)

@[simp] theorem withInputs_mode (inputs : List Input) : (s.withInputs inputs).mode = s.mode := rfl
@[simp] theorem withInputs_pos (inputs : List Input) : (s.withInputs inputs).pos = s.pos := rfl
@[simp] theorem withInputs_errPos (inputs : List Input) : (s.withInputs inputs).errPos = s.errPos := rfl
@[simp] theorem withInputs_buf (inputs : List Input) : (s.withInputs inputs).buf = s.buf := rfl
@[simp] theorem withInputs_dtd (inputs : List Input) : (s.withInputs inputs).dtd = s.dtd := rfl
@[simp] theorem withInputs_ven (inputs : List Input) : (s.withInputs inputs).ven = s.ven := rfl
@[simp] theorem withInputs_dtdValid (inputs : List Input) : (s.withInputs inputs).dtdValid = s.dtdValid := rfl
@[simp] theorem withInputs_venValid (inputs : List Input) : (s.withInputs inputs).venValid = s.venValid := rfl
@[simp] theorem withInputs_inputs (inputs : List Input) : (s.withInputs inputs).inputs = inputs := rfl
@[simp] theorem withInputs_draws (inputs : List Input) : (s.withInputs inputs).draws = s.draws := rfl

@[simp] theorem openDtd_mode : s.openDtd.mode = .dtd := rfl
@[simp] theorem openDtd_pos : s.openDtd.pos = 0 := rfl
@[simp] theorem openDtd_errPos : s.openDtd.errPos = s.errPos := rfl
@[simp] theorem openDtd_buf : s.openDtd.buf = s.buf := rfl
@[simp] theorem openDtd_dtd : s.openDtd.dtd = s.dtd := rfl
@[simp] theorem openDtd_ven : s.openDtd.ven = s.ven := rfl
@[simp] theorem openDtd_dtdValid : s.openDtd.dtdValid = false := rfl
@[simp] theorem openDtd_venValid : s.openDtd.venValid = s.venValid := rfl
@[simp] theorem openDtd_inputs : s.openDtd.inputs = s.inputs := rfl
@[simp] theorem openDtd_draws : s.openDtd.draws = s.draws := rfl

@[simp] theorem openVen_mode : s.openVen.mode = .ven := rfl
@[simp] theorem openVen_pos : s.openVen.pos = 0 := rfl
@[simp] theorem openVen_errPos : s.openVen.errPos = s.errPos := rfl
@[simp] theorem openVen_buf : s.openVen.buf = s.buf := rfl
@[simp] theorem openVen_dtd : s.openVen.dtd = s.dtd := rfl
@[simp] theorem openVen_ven : s.openVen.ven = s.ven := rfl
@[simp] theorem openVen_dtdValid : s.openVen.dtdValid = s.dtdValid := rfl
@[simp] theorem openVen_venValid : s.openVen.venValid = false := rfl
@[simp] theorem openVen_inputs : s.openVen.inputs = s.inputs := rfl
@[simp] theorem openVen_draws : s.openVen.draws = s.draws := rfl

@[simp] theorem writeDtd_mode (bank : DtdBank) : (s.writeDtd bank).mode = s.mode := rfl
@[simp] theorem writeDtd_pos (bank : DtdBank) : (s.writeDtd bank).pos = s.pos := rfl
@[simp] theorem writeDtd_errPos (bank : DtdBank) : (s.writeDtd bank).errPos = s.errPos := rfl
@[simp] theorem writeDtd_buf (bank : DtdBank) : (s.writeDtd bank).buf = s.buf := rfl
@[simp] theorem writeDtd_dtd (bank : DtdBank) : (s.writeDtd bank).dtd = bank := rfl
@[simp] theorem writeDtd_ven (bank : DtdBank) : (s.writeDtd bank).ven = s.ven := rfl
@[simp] theorem writeDtd_dtdValid (bank : DtdBank) : (s.writeDtd bank).dtdValid = s.dtdValid := rfl
@[simp] theorem writeDtd_venValid (bank : DtdBank) : (s.writeDtd bank).venValid = s.venValid := rfl
@[simp] theorem writeDtd_inputs (bank : DtdBank) : (s.writeDtd bank).inputs = s.inputs := rfl
@[simp] theorem writeDtd_draws (bank : DtdBank) : (s.writeDtd bank).draws = s.draws := rfl

@[simp] theorem writeVen_mode (bank : VenBank) : (s.writeVen bank).mode = s.mode := rfl
@[simp] theorem writeVen_pos (bank : VenBank) : (s.writeVen bank).pos = s.pos := rfl
@[simp] theorem writeVen_errPos (bank : VenBank) : (s.writeVen bank).errPos = s.errPos := rfl
@[simp] theorem writeVen_buf (bank : VenBank) : (s.writeVen bank).buf = s.buf := rfl
@[simp] theorem writeVen_dtd (bank : VenBank) : (s.writeVen bank).dtd = s.dtd := rfl
@[simp] theorem writeVen_ven (bank : VenBank) : (s.writeVen bank).ven = bank := rfl
@[simp] theorem writeVen_dtdValid (bank : VenBank) : (s.writeVen bank).dtdValid = s.dtdValid := rfl
@[simp] theorem writeVen_venValid (bank : VenBank) : (s.writeVen bank).venValid = s.venValid := rfl
@[simp] theorem writeVen_inputs (bank : VenBank) : (s.writeVen bank).inputs = s.inputs := rfl
@[simp] theorem writeVen_draws (bank : VenBank) : (s.writeVen bank).draws = s.draws := rfl

@[simp] theorem commitDtd_mode (rec : Record) : (s.commitDtd rec).mode = .idle := rfl
@[simp] theorem commitDtd_pos (rec : Record) : (s.commitDtd rec).pos = s.pos := rfl
@[simp] theorem commitDtd_errPos (rec : Record) : (s.commitDtd rec).errPos = s.errPos := rfl
@[simp] theorem commitDtd_buf (rec : Record) : (s.commitDtd rec).buf = s.buf := rfl
@[simp] theorem commitDtd_dtd (rec : Record) : (s.commitDtd rec).dtd = dtdUnpack rec := rfl
@[simp] theorem commitDtd_ven (rec : Record) : (s.commitDtd rec).ven = s.ven := rfl
@[simp] theorem commitDtd_dtdValid (rec : Record) : (s.commitDtd rec).dtdValid = true := rfl
@[simp] theorem commitDtd_venValid (rec : Record) : (s.commitDtd rec).venValid = s.venValid := rfl
@[simp] theorem commitDtd_inputs (rec : Record) : (s.commitDtd rec).inputs = s.inputs := rfl
@[simp] theorem commitDtd_draws (rec : Record) : (s.commitDtd rec).draws = s.draws := rfl

@[simp] theorem commitVen_mode (v : VenWord) : (s.commitVen v).mode = .idle := rfl
@[simp] theorem commitVen_pos (v : VenWord) : (s.commitVen v).pos = s.pos := rfl
@[simp] theorem commitVen_errPos (v : VenWord) : (s.commitVen v).errPos = s.errPos := rfl
@[simp] theorem commitVen_buf (v : VenWord) : (s.commitVen v).buf = s.buf := rfl
@[simp] theorem commitVen_dtd (v : VenWord) : (s.commitVen v).dtd = s.dtd := rfl
@[simp] theorem commitVen_ven (v : VenWord) : (s.commitVen v).ven = venUnpack v := rfl
@[simp] theorem commitVen_dtdValid (v : VenWord) : (s.commitVen v).dtdValid = s.dtdValid := rfl
@[simp] theorem commitVen_venValid (v : VenWord) : (s.commitVen v).venValid = true := rfl
@[simp] theorem commitVen_inputs (v : VenWord) : (s.commitVen v).inputs = s.inputs := rfl
@[simp] theorem commitVen_draws (v : VenWord) : (s.commitVen v).draws = s.draws := rfl

@[simp] theorem raiseIncomplete_mode (p : BitVec 5) : (s.raiseIncomplete p).mode = .failed := rfl
@[simp] theorem raiseIncomplete_pos (p : BitVec 5) : (s.raiseIncomplete p).pos = s.pos := rfl
@[simp] theorem raiseIncomplete_errPos (p : BitVec 5) : (s.raiseIncomplete p).errPos = p := rfl
@[simp] theorem raiseIncomplete_buf (p : BitVec 5) : (s.raiseIncomplete p).buf = s.buf := rfl
@[simp] theorem raiseIncomplete_dtd (p : BitVec 5) : (s.raiseIncomplete p).dtd = s.dtd := rfl
@[simp] theorem raiseIncomplete_ven (p : BitVec 5) : (s.raiseIncomplete p).ven = s.ven := rfl
@[simp] theorem raiseIncomplete_dtdValid (p : BitVec 5) : (s.raiseIncomplete p).dtdValid = false := rfl
@[simp] theorem raiseIncomplete_venValid (p : BitVec 5) : (s.raiseIncomplete p).venValid = false := rfl
@[simp] theorem raiseIncomplete_inputs (p : BitVec 5) : (s.raiseIncomplete p).inputs = s.inputs := rfl
@[simp] theorem raiseIncomplete_draws (p : BitVec 5) : (s.raiseIncomplete p).draws = s.draws := rfl

@[simp] theorem resetStep_mode : s.resetStep.mode = .idle := rfl
@[simp] theorem resetStep_pos : s.resetStep.pos = 0 := rfl
@[simp] theorem resetStep_errPos : s.resetStep.errPos = 0 := rfl
@[simp] theorem resetStep_buf : s.resetStep.buf = freeBuf s.draws := rfl
@[simp] theorem resetStep_dtd : s.resetStep.dtd = freeDtd s.draws := rfl
@[simp] theorem resetStep_ven : s.resetStep.ven = freeVen s.draws := rfl
@[simp] theorem resetStep_dtdValid : s.resetStep.dtdValid = false := rfl
@[simp] theorem resetStep_venValid : s.resetStep.venValid = false := rfl
@[simp] theorem resetStep_inputs : s.resetStep.inputs = s.inputs := rfl
@[simp] theorem resetStep_draws : s.resetStep.draws = s.draws + 1 := rfl

end Sys2Proof.Machine.State
end

