-- ==== Sys2Proof/Laws/Ops.lean ====
section
/-!
SUPPORT. Once for each shared operation, everything it can do: taking a byte, pushing in each mode, a command, a cycle,
a step.
-/
namespace Sys2Proof.Machine

/-! ### Taking a byte (rule R144) -/

theorem State.takeByte_inRange {s : State} (b : Byte) (h : s.pos.toNat < 18) :
    s.takeByte b = { s with buf := s.buf.set s.pos.toNat b h, pos := s.pos + 1 } := by
  simp [State.takeByte, h]

@[simp] theorem State.takeByte_mode (s : State) (b : Byte) : (s.takeByte b).mode = s.mode := by
  unfold State.takeByte; split <;> rfl

@[simp] theorem State.takeByte_errPos (s : State) (b : Byte) : (s.takeByte b).errPos = s.errPos := by
  unfold State.takeByte; split <;> rfl

@[simp] theorem State.takeByte_dtd (s : State) (b : Byte) : (s.takeByte b).dtd = s.dtd := by
  unfold State.takeByte; split <;> rfl

@[simp] theorem State.takeByte_ven (s : State) (b : Byte) : (s.takeByte b).ven = s.ven := by
  unfold State.takeByte; split <;> rfl

@[simp] theorem State.takeByte_dtdValid (s : State) (b : Byte) : (s.takeByte b).dtdValid = s.dtdValid := by
  unfold State.takeByte; split <;> rfl

@[simp] theorem State.takeByte_venValid (s : State) (b : Byte) : (s.takeByte b).venValid = s.venValid := by
  unfold State.takeByte; split <;> rfl

@[simp] theorem State.takeByte_inputs (s : State) (b : Byte) : (s.takeByte b).inputs = s.inputs := by
  unfold State.takeByte; split <;> rfl

theorem State.takeByte_draws {s : State} (b : Byte) (h : s.pos.toNat < 18) : (s.takeByte b).draws = s.draws := by
  simp [State.takeByte_inRange b h]

theorem State.takeByte_buf {s : State} (b : Byte) (h : s.pos.toNat < 18) :
    (s.takeByte b).buf = s.buf.set s.pos.toNat b h := by
  simp [State.takeByte_inRange b h]

theorem State.takeByte_pos {s : State} (b : Byte) (h : s.pos.toNat < 18) :
    (s.takeByte b).pos.toNat = s.pos.toNat + 1 := by
  simp [State.takeByte_inRange b h, BitVec.toNat_add]; omega

/-! ### Pushing -/

theorem State.pushDtd_last {s : State} (b : Byte) (h : s.pos.toNat = 17) :
    s.pushDtd b = (s.takeByte b).commitDtd (s.buf.set 17 b) := by
  simp [State.pushDtd, State.recordWith, dtdLen, h]

theorem State.pushDtd_more {s : State} (b : Byte) (h : s.pos.toNat ≠ 17) : s.pushDtd b = s.takeByte b := by
  simp [State.pushDtd, dtdLen, h]

theorem State.pushVen_last {s : State} (b : Byte) (h : s.pos.toNat = 1) :
    s.pushVen b = (s.takeByte b).commitVen (be16 s.buf[0] b) := by
  simp [State.pushVen, venLen, h]

theorem State.pushVen_more {s : State} (b : Byte) (h : s.pos.toNat ≠ 1) : s.pushVen b = s.takeByte b := by
  simp [State.pushVen, venLen, h]

/-! ### The pending inputs are read by no operation of the block -/

theorem State.takeByte_withInputs (s : State) (b : Byte) (l : List Input) :
    (s.withInputs l).takeByte b = (s.takeByte b).withInputs l := by
  by_cases h : s.pos.toNat < 18 <;> simp [State.takeByte, h] <;> rfl

theorem State.pushDtd_withInputs (s : State) (b : Byte) (l : List Input) :
    (s.withInputs l).pushDtd b = (s.pushDtd b).withInputs l := by
  by_cases h : s.pos.toNat + 1 = dtdLen <;> simp [State.pushDtd, h, State.takeByte_withInputs]; rfl

theorem State.pushVen_withInputs (s : State) (b : Byte) (l : List Input) :
    (s.withInputs l).pushVen b = (s.pushVen b).withInputs l := by
  by_cases h : s.pos.toNat + 1 = venLen <;> simp [State.pushVen, h, State.takeByte_withInputs]; rfl

/-! ### Commands, cycles, steps -/

/-- The canonical word of a `PUSH` decodes to it (rule R80). -/
theorem decodeCmd_pushOf : ∀ b : Byte, decodeCmd (CmdWord.pushOf b) = .push b := by
  decide +kernel

/-- Every word of the command port is one of the five commands (rule R80). -/
theorem decodeCmd_cases (w : CmdWord) :
    decodeCmd w = .nop ∨ decodeCmd w = .startDtd ∨ decodeCmd w = .startVen ∨ (∃ b, decodeCmd w = .push b) ∨
      decodeCmd w = .endBuffer := by
  unfold decodeCmd
  split
  · simp
  · split
    · split <;> simp
    · split <;> simp

/-- What a command can do in each mode (the table of rule R140): nothing, or the one thing its mode accepts. -/
inductive Effect (s : State) : State → Prop where
  | none : Effect s s
  | openDtd (h : s.mode = .idle) : Effect s s.openDtd
  | openVen (h : s.mode = .idle) : Effect s s.openVen
  | pushDtd (h : s.mode = .dtd) (b : Byte) : Effect s (s.pushDtd b)
  | pushVen (h : s.mode = .ven) (b : Byte) : Effect s (s.pushVen b)
  | fail (h : s.mode.busy = true) : Effect s (s.raiseIncomplete s.pos)

/-- Everything a command can do. -/
theorem exec_decodeCmd_effect (w : CmdWord) (s : State) : ∃ t, exec (decodeCmd w) s = .next t ∧ Effect s t := by
  rcases decodeCmd_cases w with h | h | h | ⟨b, h⟩ | h <;> rw [h] <;>
    simp only [exec, execNop, execStartDtd, execStartVen, execPush, execEndBuffer]
  · exact ⟨s, rfl, .none⟩
  · cases hm : s.mode <;> first | exact ⟨_, rfl, .openDtd hm⟩ | exact ⟨_, rfl, .none⟩
  · cases hm : s.mode <;> first | exact ⟨_, rfl, .openVen hm⟩ | exact ⟨_, rfl, .none⟩
  · cases hm : s.mode <;>
      first | exact ⟨_, rfl, .pushDtd hm b⟩ | exact ⟨_, rfl, .pushVen hm b⟩ | exact ⟨_, rfl, .none⟩
  · cases hm : s.mode <;> first | exact ⟨_, rfl, .fail (by simp [hm, Mode.busy])⟩ | exact ⟨_, rfl, .none⟩

/-- Everything a cycle can do: a reset, or a command's effect. -/
theorem cycle_effect {rst : Bool} {w : CmdWord} {s t : State} (h : cycle rst w s = .next t) :
    (rst = true ∧ t = s.resetStep) ∨ (rst = false ∧ Effect s t) := by
  obtain ⟨u, hu, he⟩ := exec_decodeCmd_effect w s
  cases rst
  · simp only [cycle, Bool.false_eq_true, if_false, hu, Host.Outcome.next.injEq] at h
    exact .inr ⟨rfl, h ▸ he⟩
  · simp only [cycle, if_true, Host.Outcome.next.injEq] at h
    exact .inl ⟨rfl, h.symm⟩

/-- Everything a step can do. -/
theorem step_effect {s t : State} (h : step s = .next t) :
    ∃ i rest, s.inputs = i :: rest ∧
      ((i.rst = true ∧ t = (s.withInputs rest).resetStep) ∨ (i.rst = false ∧ Effect (s.withInputs rest) t)) := by
  unfold step at h
  split at h
  · cases h
  · exact ⟨_, _, ‹_›, cycle_effect h⟩

end Sys2Proof.Machine
end

