-- ==== Sys2Proof/Laws/PerInstr.lean ====
section
/-!
SUPPORT. A fact of every instruction as syntax, one lemma per constructor: its encoding has exactly the number of bytes
of its row's format (rule R70: three formats, each of one fixed length).
-/
namespace Sys2Proof.Laws.EncodedLength

/-- The encoding of an instruction has its format's length. -/
def Statement (i : Instr) : Prop := (encode i).length = i.row.format.bytes

theorem nop : Statement .nop := rfl
theorem startDtd : Statement .startDtd := rfl
theorem startVen : Statement .startVen := rfl
theorem push (b : Byte) : Statement (.push b) := rfl
theorem endBuffer : Statement .endBuffer := rfl
theorem dtdUnpack (rec : Record) : Statement (.dtdUnpack rec) := by simp [Statement, encode, Instr.row, Row.format, Format.bytes]
theorem dtdPixelClock (rec : Record) : Statement (.dtdPixelClock rec) := by simp [Statement, encode, Instr.row, Row.format, Format.bytes]
theorem dtdHActive (rec : Record) : Statement (.dtdHActive rec) := by simp [Statement, encode, Instr.row, Row.format, Format.bytes]
theorem dtdHBlanking (rec : Record) : Statement (.dtdHBlanking rec) := by simp [Statement, encode, Instr.row, Row.format, Format.bytes]
theorem dtdVActive (rec : Record) : Statement (.dtdVActive rec) := by simp [Statement, encode, Instr.row, Row.format, Format.bytes]
theorem dtdVBlanking (rec : Record) : Statement (.dtdVBlanking rec) := by simp [Statement, encode, Instr.row, Row.format, Format.bytes]
theorem dtdHFrontPorch (rec : Record) : Statement (.dtdHFrontPorch rec) := by simp [Statement, encode, Instr.row, Row.format, Format.bytes]
theorem dtdHSyncWidth (rec : Record) : Statement (.dtdHSyncWidth rec) := by simp [Statement, encode, Instr.row, Row.format, Format.bytes]
theorem dtdVFrontPorch (rec : Record) : Statement (.dtdVFrontPorch rec) := by simp [Statement, encode, Instr.row, Row.format, Format.bytes]
theorem dtdVSyncWidth (rec : Record) : Statement (.dtdVSyncWidth rec) := by simp [Statement, encode, Instr.row, Row.format, Format.bytes]
theorem dtdHSize (rec : Record) : Statement (.dtdHSize rec) := by simp [Statement, encode, Instr.row, Row.format, Format.bytes]
theorem dtdVSize (rec : Record) : Statement (.dtdVSize rec) := by simp [Statement, encode, Instr.row, Row.format, Format.bytes]
theorem dtdHBorder (rec : Record) : Statement (.dtdHBorder rec) := by simp [Statement, encode, Instr.row, Row.format, Format.bytes]
theorem dtdVBorder (rec : Record) : Statement (.dtdVBorder rec) := by simp [Statement, encode, Instr.row, Row.format, Format.bytes]
theorem dtdFeatures (rec : Record) : Statement (.dtdFeatures rec) := by simp [Statement, encode, Instr.row, Row.format, Format.bytes]
theorem dtdTagNonzero (rec : Record) : Statement (.dtdTagNonzero rec) := by simp [Statement, encode, Instr.row, Row.format, Format.bytes]
theorem venUnpack (v : VenWord) : Statement (.venUnpack v) := rfl
theorem venLetter0 (v : VenWord) : Statement (.venLetter0 v) := rfl
theorem venLetter1 (v : VenWord) : Statement (.venLetter1 v) := rfl
theorem venLetter2 (v : VenWord) : Statement (.venLetter2 v) := rfl
theorem venInRange (v : VenWord) : Statement (.venInRange v) := rfl

end Sys2Proof.Laws.EncodedLength
end

