-- ==== Sys2Proof/Tests/Slice0.lean ====
section
/-!
SUPPORT. Tests of the model against the spec's own vectors (`95_test_vectors.md`), the well-formedness smoke tests, and
for each statement with hypotheses a witness that meets them.
-/
namespace Sys2Proof.Tests

open Sys2Proof Sys2Proof.Machine

/-- Record A18 of `95_test_vectors.md` section 2.1.1 (Fixture A's values). -/
def a18 : Record := #v[0x21, 0x39, 0x90, 0x30, 0x62, 0x1A, 0x27, 0x40, 0x68, 0xB0, 0x36, 0x00, 0xDA, 0x28, 0x11, 0x00, 0x00, 0x1C]

/-- Record DD of section 2.1.2, a display descriptor pushed as a timing record (zero tag). -/
def dd : Record := #v[0x00, 0x00, 0x00, 0xFC, 0x00, 0x53, 0x79, 0x6E, 0x63, 0x4D, 0x61, 0x73, 0x74, 0x65, 0x72, 0x0A, 0x20, 0x20]

/-- Record F18 of section 2.1.2, every byte 0xFF. -/
def f18 : Record := Vector.replicate 18 0xFF

/-- Record V13 of section 2.1.2, a mixed case for bytes 8 to 11. -/
def v13 : Record := #v[0, 0, 0, 0, 0, 0, 0, 0, 0x12, 0x34, 0x56, 0x1B, 0, 0, 0, 0, 0, 0]

/-- A state in a given mode and position, its buffer that of A18, its flags as given. -/
def at_ (mode : Mode) (pos : BitVec 5) (dv vv : Bool) : State :=
  { State.reset with mode := mode, pos := pos, buf := a18, dtdValid := dv, venValid := vv }

/-- The next state of an outcome, where there is one. -/
def nextOf (o : Host.Outcome State Fault Refusal) : Option State :=
  match o with
  | .next s => some s
  | .fault _ => none
  | .refused _ => none

/-- Mode, position, error position and the two valid flags of an outcome's next state. -/
def control (o : Host.Outcome State Fault Refusal) : Option (Mode × BitVec 5 × BitVec 5 × Bool × Bool) :=
  (nextOf o).map fun s => (s.mode, s.pos, s.errPos, s.dtdValid, s.venValid)

/-! ### Well-formedness: each check refuses an ill-formed term -/

theorem smoke_cmdWordFits : cmdWordFits 1024 = false ∧ cmdWordFits 1023 = true := by decide
theorem smoke_bytesFit_length : bytesFit .dtd18 [0, 0] = false ∧ bytesFit .ven16 [0x4C] = false := by decide
theorem smoke_bytesFit_tenBits : bytesFit .cmd10 [0x00, 0x04] = false ∧ bytesFit .cmd10 [0xFF, 0x03] = true := by decide
theorem smoke_decode_shortRecord : decode .dtd18 (a18.toList.take 17) = .error .wrongLength := by decide
theorem smoke_decode_wideCommand : decode .cmd10 [0x00, 0x04] = .error .notTenBits := by decide
theorem smoke_decodeAs_otherRow : decodeAs .nop [0x00, 0x03] = .error .otherRow := by decide

/-! ### Decoding: every constructor from a word written out from its encoding -/

-- rule R80's patterns, bit by bit: op in bits 9:8, the rest as written
theorem test_decode_nop : decodeAs .nop [0b11111111, 0b00] = .ok .nop := by decide
theorem test_decode_startDtd : decodeAs .startDtd [0b11111110, 0b01] = .ok .startDtd := by decide
theorem test_decode_startVen : decodeAs .startVen [0b00000001, 0b01] = .ok .startVen := by decide
theorem test_decode_push : decodeAs .push [0b01100010, 0b10] = .ok (.push 0x62) := by decide
theorem test_decode_endBuffer : decodeAs .endBuffer [0b10100111, 0b11] = .ok .endBuffer := by decide

-- rule R71: the eighteen bytes in stream order
theorem test_decode_dtdUnpack :
    decodeAs .dtdUnpack [0x21, 0x39, 0x90, 0x30, 0x62, 0x1A, 0x27, 0x40, 0x68, 0xB0, 0x36, 0x00, 0xDA, 0x28, 0x11, 0x00, 0x00, 0x1C] =
      .ok (.dtdUnpack a18) := by decide
theorem test_decode_dtdPixelClock :
    decodeAs .dtdPixelClock [0x21, 0x39, 0x90, 0x30, 0x62, 0x1A, 0x27, 0x40, 0x68, 0xB0, 0x36, 0x00, 0xDA, 0x28, 0x11, 0x00, 0x00, 0x1C] =
      .ok (.dtdPixelClock a18) := by decide
theorem test_decode_dtdHActive :
    decodeAs .dtdHActive [0x21, 0x39, 0x90, 0x30, 0x62, 0x1A, 0x27, 0x40, 0x68, 0xB0, 0x36, 0x00, 0xDA, 0x28, 0x11, 0x00, 0x00, 0x1C] =
      .ok (.dtdHActive a18) := by decide
theorem test_decode_dtdHBlanking :
    decodeAs .dtdHBlanking [0x21, 0x39, 0x90, 0x30, 0x62, 0x1A, 0x27, 0x40, 0x68, 0xB0, 0x36, 0x00, 0xDA, 0x28, 0x11, 0x00, 0x00, 0x1C] =
      .ok (.dtdHBlanking a18) := by decide
theorem test_decode_dtdVActive :
    decodeAs .dtdVActive [0x21, 0x39, 0x90, 0x30, 0x62, 0x1A, 0x27, 0x40, 0x68, 0xB0, 0x36, 0x00, 0xDA, 0x28, 0x11, 0x00, 0x00, 0x1C] =
      .ok (.dtdVActive a18) := by decide
theorem test_decode_dtdVBlanking :
    decodeAs .dtdVBlanking [0x21, 0x39, 0x90, 0x30, 0x62, 0x1A, 0x27, 0x40, 0x68, 0xB0, 0x36, 0x00, 0xDA, 0x28, 0x11, 0x00, 0x00, 0x1C] =
      .ok (.dtdVBlanking a18) := by decide
theorem test_decode_dtdHFrontPorch :
    decodeAs .dtdHFrontPorch [0x21, 0x39, 0x90, 0x30, 0x62, 0x1A, 0x27, 0x40, 0x68, 0xB0, 0x36, 0x00, 0xDA, 0x28, 0x11, 0x00, 0x00, 0x1C] =
      .ok (.dtdHFrontPorch a18) := by decide
theorem test_decode_dtdHSyncWidth :
    decodeAs .dtdHSyncWidth [0x21, 0x39, 0x90, 0x30, 0x62, 0x1A, 0x27, 0x40, 0x68, 0xB0, 0x36, 0x00, 0xDA, 0x28, 0x11, 0x00, 0x00, 0x1C] =
      .ok (.dtdHSyncWidth a18) := by decide
theorem test_decode_dtdVFrontPorch :
    decodeAs .dtdVFrontPorch [0x21, 0x39, 0x90, 0x30, 0x62, 0x1A, 0x27, 0x40, 0x68, 0xB0, 0x36, 0x00, 0xDA, 0x28, 0x11, 0x00, 0x00, 0x1C] =
      .ok (.dtdVFrontPorch a18) := by decide
theorem test_decode_dtdVSyncWidth :
    decodeAs .dtdVSyncWidth [0x21, 0x39, 0x90, 0x30, 0x62, 0x1A, 0x27, 0x40, 0x68, 0xB0, 0x36, 0x00, 0xDA, 0x28, 0x11, 0x00, 0x00, 0x1C] =
      .ok (.dtdVSyncWidth a18) := by decide
theorem test_decode_dtdHSize :
    decodeAs .dtdHSize [0x21, 0x39, 0x90, 0x30, 0x62, 0x1A, 0x27, 0x40, 0x68, 0xB0, 0x36, 0x00, 0xDA, 0x28, 0x11, 0x00, 0x00, 0x1C] =
      .ok (.dtdHSize a18) := by decide
theorem test_decode_dtdVSize :
    decodeAs .dtdVSize [0x21, 0x39, 0x90, 0x30, 0x62, 0x1A, 0x27, 0x40, 0x68, 0xB0, 0x36, 0x00, 0xDA, 0x28, 0x11, 0x00, 0x00, 0x1C] =
      .ok (.dtdVSize a18) := by decide
theorem test_decode_dtdHBorder :
    decodeAs .dtdHBorder [0x21, 0x39, 0x90, 0x30, 0x62, 0x1A, 0x27, 0x40, 0x68, 0xB0, 0x36, 0x00, 0xDA, 0x28, 0x11, 0x00, 0x00, 0x1C] =
      .ok (.dtdHBorder a18) := by decide
theorem test_decode_dtdVBorder :
    decodeAs .dtdVBorder [0x21, 0x39, 0x90, 0x30, 0x62, 0x1A, 0x27, 0x40, 0x68, 0xB0, 0x36, 0x00, 0xDA, 0x28, 0x11, 0x00, 0x00, 0x1C] =
      .ok (.dtdVBorder a18) := by decide
theorem test_decode_dtdFeatures :
    decodeAs .dtdFeatures [0x21, 0x39, 0x90, 0x30, 0x62, 0x1A, 0x27, 0x40, 0x68, 0xB0, 0x36, 0x00, 0xDA, 0x28, 0x11, 0x00, 0x00, 0x1C] =
      .ok (.dtdFeatures a18) := by decide
theorem test_decode_dtdTagNonzero :
    decodeAs .dtdTagNonzero [0x21, 0x39, 0x90, 0x30, 0x62, 0x1A, 0x27, 0x40, 0x68, 0xB0, 0x36, 0x00, 0xDA, 0x28, 0x11, 0x00, 0x00, 0x1C] =
      .ok (.dtdTagNonzero a18) := by decide

-- rule R75: 0 10011 00001 01101, the more significant byte first
theorem test_decode_venUnpack : decodeAs .venUnpack [0b01001100, 0b00101101] = .ok (.venUnpack 0x4C2D) := by decide
theorem test_decode_venLetter0 : decodeAs .venLetter0 [0b01001100, 0b00101101] = .ok (.venLetter0 0x4C2D) := by decide
theorem test_decode_venLetter1 : decodeAs .venLetter1 [0b01001100, 0b00101101] = .ok (.venLetter1 0x4C2D) := by decide
theorem test_decode_venLetter2 : decodeAs .venLetter2 [0b01001100, 0b00101101] = .ok (.venLetter2 0x4C2D) := by decide
theorem test_decode_venInRange : decodeAs .venInRange [0b01001100, 0b00101101] = .ok (.venInRange 0x4C2D) := by decide

theorem test_decodeTableWord_push : decodeTableWord 16 0x262 = some (.push 0x62) := by decide
theorem test_decodeTableWord_startVen : decodeTableWord 16 0x1FF = some .startVen := by decide
theorem test_decodeTableWord_record : decodeTableWord 144 (0x39 * 256 + 0x21) =
    some (.dtdUnpack #v[0x21, 0x39, 0, 0, 0, 0, 0, 0, 0, 0, 0, 0, 0, 0, 0, 0, 0, 0]) := by decide
theorem test_decodeTableWord_vendor : decodeTableWord 16 0x4C2D = some (.venUnpack 0x4C2D) := by decide

/-! ### `DTD_UNPACK`: section 2.1 of the vectors -/

/-- The result bank an outcome leaves. -/
def bankOf (o : Host.Outcome State Fault Refusal) : Option DtdBank := (nextOf o).map fun s => s.dtd

-- row A18, all fifteen values
theorem test_dtdUnpack_a18 : bankOf (exec (.dtdUnpack a18) State.reset) = some
    { pixelClock := 146250, hActive := 1680, hBlanking := 560, vActive := 1050, vBlanking := 39, hFrontPorch := 104
      hSyncWidth := 176, vFrontPorch := 3, vSyncWidth := 6, hSize := 474, vSize := 296, hBorder := 0, vBorder := 0
      features := 28, tagNonzero := true } := by decide

-- row DD, all fifteen values
theorem test_dtdUnpack_dd : bankOf (exec (.dtdUnpack dd) State.reset) = some
    { pixelClock := 0, hActive := 0, hBlanking := 252, vActive := 1619, vBlanking := 3705, hFrontPorch := 355
      hSyncWidth := 845, vFrontPorch := 6, vSyncWidth := 769, hSize := 1908, vSize := 613, hBorder := 10, vBorder := 32
      features := 32, tagNonzero := false } := by decide

-- rows F18, V13, A18 and DD, one field each
theorem test_dtdPixelClock : bankOf (exec (.dtdPixelClock f18) State.reset) = some { DtdBank.zero with pixelClock := 655350 } := by decide
theorem test_dtdHActive : bankOf (exec (.dtdHActive a18) State.reset) = some { DtdBank.zero with hActive := 1680 } := by decide
theorem test_dtdHBlanking : bankOf (exec (.dtdHBlanking dd) State.reset) = some { DtdBank.zero with hBlanking := 252 } := by decide
theorem test_dtdVActive : bankOf (exec (.dtdVActive dd) State.reset) = some { DtdBank.zero with vActive := 1619 } := by decide
theorem test_dtdVBlanking : bankOf (exec (.dtdVBlanking dd) State.reset) = some { DtdBank.zero with vBlanking := 3705 } := by decide
theorem test_dtdHFrontPorch : bankOf (exec (.dtdHFrontPorch v13) State.reset) = some { DtdBank.zero with hFrontPorch := 18 } := by decide
theorem test_dtdHSyncWidth : bankOf (exec (.dtdHSyncWidth v13) State.reset) = some { DtdBank.zero with hSyncWidth := 308 } := by decide
theorem test_dtdVFrontPorch : bankOf (exec (.dtdVFrontPorch v13) State.reset) = some { DtdBank.zero with vFrontPorch := 517 } := by decide
theorem test_dtdVSyncWidth : bankOf (exec (.dtdVSyncWidth v13) State.reset) = some { DtdBank.zero with vSyncWidth := 774 } := by decide
theorem test_dtdHSize : bankOf (exec (.dtdHSize dd) State.reset) = some { DtdBank.zero with hSize := 1908 } := by decide
theorem test_dtdVSize : bankOf (exec (.dtdVSize dd) State.reset) = some { DtdBank.zero with vSize := 613 } := by decide
theorem test_dtdHBorder : bankOf (exec (.dtdHBorder dd) State.reset) = some { DtdBank.zero with hBorder := 10 } := by decide
theorem test_dtdVBorder : bankOf (exec (.dtdVBorder dd) State.reset) = some { DtdBank.zero with vBorder := 32 } := by decide
theorem test_dtdFeatures : bankOf (exec (.dtdFeatures a18) State.reset) = some { DtdBank.zero with features := 28 } := by decide
theorem test_dtdTagNonzero : bankOf (exec (.dtdTagNonzero a18) State.reset) = some { DtdBank.zero with tagNonzero := true } := by decide

-- section 2.1.2: V11 and V12, where a shift of 8 differs from a shift of 4
theorem test_vFrontPorch_shift8 : vFrontPorch #v[0, 0, 0, 0, 0, 0, 0, 0, 0, 0, 0, 0x04, 0, 0, 0, 0, 0, 0] = 256 := by decide
theorem test_vSyncWidth_shift8 : vSyncWidth #v[0, 0, 0, 0, 0, 0, 0, 0, 0, 0, 0, 0x01, 0, 0, 0, 0, 0, 0] = 256 := by decide

/-! ### `VEN_UNPACK`: section 2.2 of the vectors -/

/-- The vendor bank an outcome leaves. -/
def vendorOf (o : Host.Outcome State Fault Refusal) : Option VenBank := (nextOf o).map fun s => s.ven

theorem test_venUnpack_sam : vendorOf (exec (.venUnpack 0x4C2D) State.reset) =
    some { letter0 := 83, letter1 := 65, letter2 := 77, inRange := true } := by decide
theorem test_venUnpack_outOfRange : vendorOf (exec (.venUnpack 0x6C00) State.reset) =
    some { letter0 := 91, letter1 := 64, letter2 := 64, inRange := false } := by decide
theorem test_venLetter0 : vendorOf (exec (.venLetter0 0x4D2D) State.reset) =
    some { VenBank.zero with letter0 := 83 } := by decide
theorem test_venLetter1 : vendorOf (exec (.venLetter1 0x0360) State.reset) =
    some { VenBank.zero with letter1 := 91 } := by decide
theorem test_venLetter2 : vendorOf (exec (.venLetter2 0x001F) State.reset) =
    some { VenBank.zero with letter2 := 95 } := by decide
theorem test_venInRange_zzz : vendorOf (exec (.venInRange 0x6B5A) State.reset) =
    some { VenBank.zero with inRange := true } := by decide
theorem test_venInRange_oneBad : inRange 0x4C20 = false := by decide
theorem test_venPack_sam : venPack 83 65 77 = 0x4C2D := by decide

/-! ### Single steps: section 2.3 of the vectors, by row -/

theorem test_nop_S3 : control (cycle false 0x0FF (at_ .dtd 7 false false)) = some (.dtd, 7, 0, false, false) := by decide
theorem test_startDtd_S4 : control (cycle false 0x100 (at_ .idle 18 true true)) = some (.dtd, 0, 0, false, true) := by decide
theorem test_startDtd_S6 : control (cycle false 0x1FE (at_ .idle 0 false false)) = some (.dtd, 0, 0, false, false) := by decide
theorem test_startVen_S5 : control (cycle false 0x101 (at_ .idle 2 true true)) = some (.ven, 0, 0, true, false) := by decide
theorem test_startVen_S14 : control (cycle false 0x101 (at_ .dtd 5 false true)) = some (.dtd, 5, 0, false, true) := by decide
theorem test_push_S8 : (nextOf (cycle false 0x262 (at_ .dtd 4 false false))).map (fun s => (s.mode, s.pos, s.buf[4])) =
    some (.dtd, 5, 0x62) := by decide
theorem test_push_S9 : (nextOf (cycle false 0x21C (at_ .dtd 17 false false))).map
    (fun s => (s.mode, s.pos, s.dtdValid, s.dtd.pixelClock, s.dtd.features)) = some (.idle, 18, true, 146250, 28) := by
  decide
theorem test_end_S16 : control (cycle false 0x300 (at_ .dtd 5 false true)) = some (.failed, 5, 5, false, false) := by decide
theorem test_end_S13 : control (cycle false 0x300 (at_ .idle 18 true false)) = some (.idle, 18, 0, true, false) := by decide

-- row S11: the second byte of "SAM"
theorem test_pushVen_S11 :
    (nextOf (cycle false 0x22D ({ at_ .ven 1 false false with buf := a18.set 0 0x4C }))).map
      (fun s => (s.mode, s.pos, s.venValid, s.ven)) =
    some (.idle, 2, true, { letter0 := 83, letter1 := 65, letter2 := 77, inRange := true }) := by decide

-- row S22: reset wins over PUSH, no byte is taken and no failure recorded
theorem test_reset_S22 : control (cycle true 0x2FF (at_ .dtd 9 false false)) = some (.idle, 0, 0, false, false) := rfl

-- the host's question, on a command and on a record
theorem test_withFetchWord_startVen : control (step (State.reset.withFetchWord 16 0x101)) =
    some (.ven, 0, 0, false, false) := by decide
theorem test_withFetchWord_record : (nextOf (step (State.reset.withFetchWord 144 (0x12 * 256 + 0x34)))).map
    (fun s => (s.mode, s.dtdValid, s.dtd.pixelClock)) = some (.idle, true, 46600) := by decide

-- rule R21: the encoding of mode, and that it has no other value
theorem test_mode_code : Mode.ofCode Mode.idle.code = .idle ∧ Mode.ofCode Mode.dtd.code = .dtd ∧
    Mode.ofCode Mode.ven.code = .ven ∧ Mode.ofCode Mode.failed.code = .failed := by decide

-- rule R58: the offsets of the records in the 128-byte block; P5t: a record cut short at offset 60
theorem test_offsets : (List.ofFn slotOffset) = [54, 72, 90, 108] ∧ vendorOffset = 8 := by decide
theorem test_failureOffset_P5t : failureOffset 54 { at_ .failed 6 false false with errPos := 6 } = 60 := by decide

/-! ### Witnesses: states and operands that meet the hypotheses of a statement -/

/-- The state after reset meets the invariant. -/
theorem reset_inv : State.reset.Inv := by
  constructor <;> simp [State.reset, dtdLen, venLen]

/-- A state with a detailed timing record open and `p` bytes arrived. -/
theorem openDtd_inv (p : BitVec 5) (vv : Bool) (h : p.toNat < 18) (hv : vv = false) : (at_ .dtd p false vv).Inv := by
  constructor <;> simp [at_, State.reset, dtdLen, h, hv]

/-- A state with a vendor word open and `p` bytes arrived. -/
theorem openVen_inv (p : BitVec 5) (h : p.toNat < 2) : (at_ .ven p false false).Inv := by
  constructor <;> simp [at_, State.reset, venLen, h]

/-- A state right after the record A18 was committed. -/
def committed : State := { at_ .idle 18 true false with dtd := dtdUnpack a18 }

theorem committed_inv : committed.Inv := by
  constructor <;> simp [committed, at_, State.reset, dtdLen, venLen]

/-- A state that failed after five bytes. -/
def failedAt5 : State := { at_ .failed 5 false false with errPos := 5 }

theorem failedAt5_inv : failedAt5.Inv := by
  constructor <;> simp [failedAt5, at_, State.reset, dtdLen]

theorem witness_EveryCommandWordSelectsItsRow :
    Row.push.format = .cmd10 ∧ decodeCmd 0x2FF = .push 0xFF ∧
    (Row.endBuffer, 256) ∈ [(Row.nop, 256), (Row.startDtd, 128), (Row.startVen, 128), (Row.push, 256), (Row.endBuffer, 256)] ∧
    (Instr.endBuffer, (0x300 : CmdWord)) ∈
      [(Instr.nop, (0x000 : CmdWord)), (.startDtd, 0x100), (.startVen, 0x101), (.endBuffer, 0x300)] := by
  decide

theorem witness_DecodingAnEncodedInstructionGivesItBack :
    (Instr.dtdHActive a18).wf = true ∧ (Instr.push 0xFF).row.format = .cmd10 ∧
    (Instr.dtdHActive a18).row.format = .dtd18 ∧ encode (.dtdHActive a18) = a18.toList ∧
    (Instr.venLetter1 0xFFFF).row.format = .ven16 ∧ encode (.venLetter1 0xFFFF) = venBytes 0xFFFF := by
  decide

theorem witness_BytesThatDecodeAreTheEncoding :
    decode .ven16 [0x4C, 0x2D] = .ok (.venUnpack 0x4C2D) ∧ decode .dtd18 a18.toList = .ok (.dtdUnpack a18) ∧
    decode .cmd10 [0xFF, 0x03] = .ok .endBuffer ∧ ([] : List Byte).length ≠ Format.ven16.bytes ∧
    bytesFit .cmd10 [0xFF, 0x03] = true := by
  decide

theorem witness_StepRunsTheDecodedCommand :
    (State.reset.placeCmd 0x101).inputs = Input.ofCmd 0x101 :: [] ∧ 1023 < 1024 := by
  decide

theorem witness_StepStopsOnlyWhenTheHostDoes :
    State.reset.inputs = [] ∧ (State.reset.placeCmd 0x000).inputs ≠ [] := by
  decide

theorem witness_ResetAbandonsTheOpenRecord :
    (at_ .dtd 17 false true).mode = .dtd ∧
    cycle true 0x2FF (at_ .dtd 17 false true) = .next (at_ .dtd 17 false true).resetStep :=
  ⟨rfl, rfl⟩

theorem witness_AnyResetEstablishesTheInvariant :
    cycle true 0x000 (State.powerOn 0 []) = .next (State.powerOn 0 []).resetStep :=
  rfl

theorem witness_EveryStepKeepsTheInvariant : (at_ .dtd 17 false false).Inv ∧
    ({ at_ .dtd 17 false false with inputs := [Input.ofCmd 0x21C] } : State).Inv ∧
    ∃ t, step { at_ .dtd 17 false false with inputs := [Input.ofCmd 0x21C] } = .next t := by
  refine ⟨openDtd_inv 17 false (by decide) rfl, ?_, _, rfl⟩
  constructor <;> simp [at_, State.reset, dtdLen]

theorem witness_NopsHaveNoEffect : ∀ w ∈ [(0x000 : CmdWord), 0x0FF], decodeCmd w = .nop := by decide

theorem witness_StartDtdOpensARecord : (at_ .idle 18 true true).mode = .idle ∧ (at_ .failed 5 false false).mode ≠ .idle := by
  decide

theorem witness_StartVenOpensAWord : (at_ .idle 2 true true).mode = .idle ∧ (at_ .ven 1 false false).mode ≠ .idle := by
  decide

theorem witness_PushTakesTheNextByte :
    ((at_ .dtd 0 false false).mode = .dtd ∧ (at_ .dtd 0 false false).pos.toNat < 18) ∧
    ((at_ .dtd 17 false false).mode = .dtd ∧ (at_ .dtd 17 false false).pos.toNat < 18 ∧
      (at_ .dtd 17 false false).pos.toNat + 1 = 18) ∧
    ((at_ .ven 0 false false).mode = .ven ∧ (at_ .ven 0 false false).pos.toNat + 1 ≠ 2) ∧
    ((at_ .ven 1 false false).mode = .ven ∧ (at_ .ven 1 false false).pos.toNat + 1 = 2) ∧
    ((at_ .ven 17 false false).mode = .ven ∧ (at_ .ven 17 false false).pos.toNat < 18) ∧
    (at_ .idle 2 false true).mode = .idle ∧ (at_ .failed 1 false false).mode = .failed := by
  decide

theorem witness_PushPastTheBufferStillCompletes :
    ((at_ .dtd 18 false false).mode = .dtd ∧ 18 ≤ (at_ .dtd 18 false false).pos.toNat) ∧
    ((at_ .ven 30 false false).mode = .ven ∧ (at_ .ven 30 false false).pos.toNat < 31) ∧
    ((at_ .ven 31 false false).mode = .ven ∧ ¬ (at_ .ven 31 false false).pos.toNat < 31) := by
  decide

theorem witness_EighteenthByteCommitsTheRecord :
    (at_ .dtd 17 false false).mode = .dtd ∧ (at_ .dtd 17 false false).pos = 17 ∧
    (∀ (k : Nat) (h : k < 17), (at_ .dtd 17 false false).buf[k] = a18[k]) ∧
    (∃ t, cycle false 0x21C (at_ .dtd 17 false false) = .next t ∧ (at_ .dtd 17 false false).dtdValid = false ∧
      t.dtdValid = true) :=
  ⟨rfl, rfl, fun _ _ => rfl, _, rfl, rfl, rfl⟩

theorem witness_SecondByteCommitsTheVendorWord :
    (at_ .ven 1 false false).mode = .ven ∧ (at_ .ven 1 false false).pos = 1 ∧
    (0x212D : VenWord).toNat = (at_ .ven 1 false false).buf[0].toNat * 256 + (0x2D : Byte).toNat ∧
    (∃ t, cycle false 0x22D (at_ .ven 1 false false) = .next t ∧ (at_ .ven 1 false false).venValid = false ∧
      t.venValid = true) :=
  ⟨rfl, rfl, rfl, _, rfl, rfl, rfl⟩

theorem witness_EndInsideARecordRaisesIncomplete :
    (at_ .dtd 0 false false).mode = .dtd ∧ (at_ .ven 1 true false).mode = .ven ∧ (at_ .idle 18 true false).mode = .idle ∧
    failedAt5.mode = .failed := by
  decide

theorem witness_OnlyEndInsideARecordFails : (at_ .dtd 17 false false).Inv ∧ (at_ .ven 1 false false).Inv ∧
    (at_ .dtd 17 false false).mode ≠ .failed ∧ (at_ .ven 1 false false).mode ≠ .failed ∧
    (∃ t, cycle false 0x300 (at_ .dtd 17 false false) = .next t ∧ t.mode = .failed) ∧
    (∃ t, cycle false 0x3A7 (at_ .ven 1 false false) = .next t ∧ t.mode = .failed) ∧
    (∃ t, cycle false 0x000 (at_ .ven 1 false false) = .next t ∧ t.mode ≠ .failed) :=
  ⟨openDtd_inv 17 false (by decide) rfl, openVen_inv 1 (by decide), by decide, by decide, ⟨_, rfl, rfl⟩, ⟨_, rfl, rfl⟩,
    ⟨_, rfl, by decide⟩⟩

theorem witness_IgnoredCommandsChangeNothing :
    failedAt5.mode = .failed ∧ (at_ .idle 18 true false).mode = .idle ∧ decodeCmd 0x2AA = .push 0xAA ∧
    decodeCmd 0x300 = .endBuffer ∧ (at_ .dtd 5 false false).mode = .dtd ∧ (at_ .ven 1 false false).mode = .ven ∧
    decodeCmd 0x100 = .startDtd ∧ decodeCmd 0x101 = .startVen := by
  decide

theorem witness_FailureIsTerminal : failedAt5.mode = .failed ∧
    cycle true 0x000 failedAt5 = .next failedAt5.resetStep :=
  ⟨rfl, rfl⟩

theorem witness_ModeMovesOnlyAlongTheArrows :
    (∃ t, cycle false 0x300 (at_ .ven 1 true false) = .next t ∧ t.mode = .failed) ∧
    (∃ t, cycle true 0x300 failedAt5 = .next t) ∧
    (at_ .dtd 17 false false).Inv ∧ (∃ t, cycle false 0x21C (at_ .dtd 17 false false) = .next t ∧ t.pos = 18) ∧
    committed.Inv ∧ (∃ t, cycle false 0x101 committed = .next t ∧ t.pos = 0) ∧
    (∃ t, cycle false 0x2FF committed = .next t ∧ t.pos = 18) :=
  ⟨⟨_, rfl, rfl⟩, ⟨_, rfl⟩, openDtd_inv 17 false (by decide) rfl, ⟨_, rfl, rfl⟩, committed_inv, ⟨_, rfl, rfl⟩, ⟨_, rfl, rfl⟩⟩

theorem witness_ResultBanksChangeOnlyAtCommitOrReset :
    (∃ t, cycle false 0x21C (at_ .dtd 17 false false) = .next t ∧ t.dtd ≠ (at_ .dtd 17 false false).dtd) ∧
    (∃ t, cycle false 0x22D (at_ .ven 1 false false) = .next t ∧ t.ven ≠ (at_ .ven 1 false false).ven) ∧
    (∃ t, cycle false 0x100 committed = .next t ∧ t.dtd = committed.dtd) :=
  ⟨⟨_, rfl, by decide⟩, ⟨_, rfl, by decide⟩, ⟨_, rfl, rfl⟩⟩

/-- A vendor word committed: "SAM". -/
def committedVen : State :=
  { at_ .idle 2 false true with buf := (a18.set 0 0x4C).set 1 0x2D, ven := venUnpack (be16 0x4C 0x2D) }

theorem committedVen_inv : committedVen.Inv := by
  constructor <;> simp [committedVen, at_, State.reset, dtdLen, venLen]

theorem witness_AResultStaysReadable :
    committed.Inv ∧ committed.dtdValid = true ∧ (∃ t, cycle false 0x101 committed = .next t ∧ t.dtdValid = true) ∧
    (∃ t, cycle false 0x100 committed = .next t ∧ t.dtdValid = false) ∧
    committedVen.Inv ∧ committedVen.venValid = true ∧ (∃ t, cycle false 0x100 committedVen = .next t ∧ t.venValid = true) ∧
    (∃ t, cycle true 0x100 committedVen = .next t ∧ t.venValid = false) :=
  ⟨committed_inv, rfl, ⟨_, rfl, rfl⟩, ⟨_, rfl, rfl⟩, committedVen_inv, rfl, ⟨_, rfl, rfl⟩, ⟨_, rfl, rfl⟩⟩

/-- Two states with a vendor word open after one byte that differ in `buf[1]` alone, the host about to push the
second. -/
def staleLeft : State := { at_ .ven 1 false false with inputs := [Input.ofCmd 0x22D] }

/-- See `staleLeft`. -/
def staleRight : State := { staleLeft with buf := staleLeft.buf.set 1 0xEE }

theorem witness_StaleBytesNeverReachTheHost :
    staleLeft.Inv ∧ staleLeft.SameButStale staleRight ∧ staleLeft ≠ staleRight ∧ ∃ t, step staleLeft = .next t := by
  refine ⟨?_, ?_, by decide, _, rfl⟩
  · constructor <;> simp [staleLeft, at_, State.reset, venLen]
  · refine ⟨rfl, rfl, rfl, rfl, rfl, rfl, rfl, rfl, rfl, fun _ k h hk => ?_⟩
    have : k = 0 := by
      have : staleLeft.pos.toNat = 1 := rfl
      omega
    subst this; rfl

theorem witness_VerdictsExcludeEachOther :
    failedAt5.Inv ∧ failedAt5.runFailed = true ∧ (at_ .dtd 0 false false).Inv ∧ (at_ .dtd 0 false false).mode = .dtd ∧
    (at_ .ven 1 false false).Inv ∧ (at_ .ven 1 false false).mode = .ven :=
  ⟨failedAt5_inv, rfl, openDtd_inv 0 false (by decide) rfl, rfl, openVen_inv 1 (by decide), rfl⟩

theorem witness_InstancesShareNothing :
    ∃ all', stepNth [State.reset, State.reset.placeCmd 0x101] 1 = .next all' ∧ 0 ≠ 1 ∧
      [State.reset, State.reset.placeCmd 0x101][1]? = some (State.reset.placeCmd 0x101) :=
  ⟨_, rfl, by decide, rfl⟩

theorem witness_DtdMacroUnpacksItsRecord : committed.mode = .idle := rfl

theorem witness_VenMacroUnpacksItsWord : (at_ .idle 18 true true).mode = .idle := rfl

theorem witness_TruncatedRecordFails :
    State.reset.mode = .idle ∧ (a18.toList.take 17).length < 18 ∧ ([] : List Byte).length < 18 := by
  decide

theorem witness_EachResultReadsOnlyItsOperands :
    (2 : Fin 18) ∉ [(0 : Fin 18), 1] ∧ (3 : Fin 18) ∉ [(2 : Fin 18), 4] ∧ (2 : Fin 18) ∉ [(3 : Fin 18), 4] ∧
    (6 : Fin 18) ∉ [(5 : Fin 18), 7] ∧ (5 : Fin 18) ∉ [(6 : Fin 18), 7] ∧ (9 : Fin 18) ∉ [(8 : Fin 18), 11] ∧
    (8 : Fin 18) ∉ [(9 : Fin 18), 11] ∧ (9 : Fin 18) ∉ [(10 : Fin 18), 11] ∧ (13 : Fin 18) ∉ [(12 : Fin 18), 14] ∧
    (12 : Fin 18) ∉ [(13 : Fin 18), 14] ∧ (16 : Fin 18) ≠ 15 ∧ (15 : Fin 18) ≠ 16 ∧ (0 : Fin 18) ≠ 17 := by
  decide

theorem witness_EveryRecordBitReachesOneResultBit : dtdUnpack a18 = dtdUnpack a18 := rfl

theorem witness_LetterSumsNeverCarry : ((83 : BitVec 8), (19 : VenWord)) ∈
    [((venUnpack 0x4C2D).letter0, (0x4C2D : VenWord) >>> 10 &&& 0x1F),
      ((venUnpack 0x4C2D).letter1, (0x4C2D : VenWord) >>> 5 &&& 0x1F),
      ((venUnpack 0x4C2D).letter2, (0x4C2D : VenWord) &&& 0x1F)] ∧
    ((95 : BitVec 8), (31 : VenWord)) ∈
    [((venUnpack 0xFFFF).letter0, (0xFFFF : VenWord) >>> 10 &&& 0x1F),
      ((venUnpack 0xFFFF).letter1, (0xFFFF : VenWord) >>> 5 &&& 0x1F),
      ((venUnpack 0xFFFF).letter2, (0xFFFF : VenWord) &&& 0x1F)] := by
  decide

theorem witness_ResultsAreTheNaturalNumbers : 255 < 256 := by decide

theorem witness_CommitWritesTheClockAndTheTwelveBitFields :
    (at_ .dtd 17 false false).mode = .dtd ∧ (at_ .dtd 17 false false).pos = 17 ∧
    ∀ (k : Nat) (h : k < 17), (at_ .dtd 17 false false).buf[k] = a18[k] :=
  ⟨rfl, rfl, fun _ _ => rfl⟩

theorem witness_CommitWritesThePorchesTheCopiesAndTheTag :
    (at_ .dtd 17 false true).mode = .dtd ∧ (at_ .dtd 17 false true).pos = 17 ∧
    ∀ (k : Nat) (h : k < 17), (at_ .dtd 17 false true).buf[k] = a18[k] :=
  ⟨rfl, rfl, fun _ _ => rfl⟩

theorem witness_CommitWritesTheLettersAndTheRange :
    (at_ .ven 1 false false).mode = .ven ∧ (at_ .ven 1 false false).pos = 1 ∧
    0x212D = (at_ .ven 1 false false).buf[0].toNat <<< 8 ||| (0x2D : Byte).toNat :=
  ⟨rfl, rfl, rfl⟩

theorem witness_VendorRoundTrip : ∀ l ∈ [(65 : BitVec 8), 90, 77], 65 ≤ l.toNat ∧ l.toNat ≤ 90 := by decide

end Sys2Proof.Tests
end

section
/-!
PROOFS of the family `10_state.md`: the dispatch table of rule R140 as a function, what a push leaves in each register,
the invariant by mode and along every effect, and the relation "same but for stale bytes" along every step.
-/
namespace Sys2Proof.Machine

/-! ### The dispatch as a function -/

/-- The state in which a command leaves the block: the table of rule R140. -/
def State.afterCmd (s : State) (i : Instr) : State :=
  match s.mode, i with
  | .idle, .startDtd => s.openDtd
  | .idle, .startVen => s.openVen
  | .dtd, .push b => s.pushDtd b
  | .ven, .push b => s.pushVen b
  | .dtd, .endBuffer => s.raiseIncomplete s.pos
  | .ven, .endBuffer => s.raiseIncomplete s.pos
  | _, _ => s

theorem exec_decodeCmd (w : CmdWord) (s : State) : exec (decodeCmd w) s = .next (s.afterCmd (decodeCmd w)) := by
  rcases decodeCmd_cases w with h | h | h | ⟨b, h⟩ | h <;> rw [h] <;>
    simp only [exec, execNop, execStartDtd, execStartVen, execPush, execEndBuffer, State.afterCmd] <;>
    cases s.mode <;> rfl

theorem cycle_false (w : CmdWord) (s : State) : cycle false w s = .next (s.afterCmd (decodeCmd w)) :=
  exec_decodeCmd w s

theorem cycle_true (w : CmdWord) (s : State) : cycle true w s = .next s.resetStep := rfl

theorem step_of_inputs {s : State} {i : Input} {rest : List Input} (h : s.inputs = i :: rest) :
    step s = cycle i.rst i.cmd (s.withInputs rest) := by
  simp [step, h]

/-! ### What a push leaves in the banks and flags -/

namespace State

variable (s : State) (b : Byte)

theorem pushDtd_dtd : (s.pushDtd b).dtd = if s.pos.toNat = 17 then dtdUnpack (s.buf.set 17 b) else s.dtd := by
  split
  · simp [pushDtd_last b ‹_›]
  · simp [pushDtd_more b ‹_›]

theorem pushVen_ven : (s.pushVen b).ven = if s.pos.toNat = 1 then venUnpack (be16 s.buf[0] b) else s.ven := by
  split
  · simp [pushVen_last b ‹_›]
  · simp [pushVen_more b ‹_›]

@[simp] theorem pushDtd_ven : (s.pushDtd b).ven = s.ven := by
  unfold pushDtd; split <;> simp

@[simp] theorem pushDtd_venValid : (s.pushDtd b).venValid = s.venValid := by
  unfold pushDtd; split <;> simp

@[simp] theorem pushVen_dtd : (s.pushVen b).dtd = s.dtd := by
  unfold pushVen; split <;> simp

@[simp] theorem pushVen_dtdValid : (s.pushVen b).dtdValid = s.dtdValid := by
  unfold pushVen; split <;> simp

end State

/-! ### The invariant -/

/-- With a detailed timing record open, what the invariant says. -/
theorem State.inv_iff_of_dtd {s : State} (hm : s.mode = .dtd) :
    s.Inv ↔ s.pos.toNat < 18 ∧ s.errPos = 0 ∧ s.dtdValid = false ∧
      (s.venValid = true → ∃ v, s.ven = venUnpack v) := by
  constructor
  · intro h
    exact ⟨h.posDtd hm, h.errZero (by simp [hm]), h.dtdOpen hm, h.venResult⟩
  · rintro ⟨hpos, herr, hflag, hven⟩
    constructor
    case venResult => exact hven
    all_goals simp [*, dtdLen]

/-- With a vendor word open, what the invariant says. -/
theorem State.inv_iff_of_ven {s : State} (hm : s.mode = .ven) :
    s.Inv ↔ s.pos.toNat < 2 ∧ s.errPos = 0 ∧ s.venValid = false ∧
      (s.dtdValid = true → ∃ rec, s.dtd = dtdUnpack rec) := by
  constructor
  · intro h
    exact ⟨h.posVen hm, h.errZero (by simp [hm]), h.venOpen hm, h.dtdResult⟩
  · rintro ⟨hpos, herr, hflag, hdtd⟩
    constructor
    case dtdResult => exact hdtd
    all_goals simp [*, venLen]

/-- After a failure, what the invariant says. -/
theorem State.inv_iff_of_failed {s : State} (hm : s.mode = .failed) :
    s.Inv ↔ s.errPos = s.pos ∧ s.pos.toNat < 18 ∧ s.dtdValid = false ∧ s.venValid = false := by
  constructor
  · intro h
    obtain ⟨herr, hpos⟩ := h.errFailed hm
    exact ⟨herr, hpos, h.failedFlags hm⟩
  · rintro ⟨herr, hpos, hdtd, hven⟩
    constructor <;> simp [*, dtdLen]

/-- Closed, at position 0 and with no valid result, a state meets the invariant whatever its data registers hold. -/
theorem State.inv_of_cleared {s : State} (hm : s.mode = .idle) (hpos : s.pos = 0) (herr : s.errPos = 0)
    (hdtd : s.dtdValid = false) (hven : s.venValid = false) : s.Inv := by
  constructor <;> simp [*, dtdLen, venLen]

namespace State.Inv

variable {s : State}

theorem resetStep (s : State) : s.resetStep.Inv := inv_of_cleared rfl rfl rfl rfl rfl

theorem withInputs (h : s.Inv) (l : List Input) : (s.withInputs l).Inv := { h with }

/-- `pos` names a byte of `buf` while a record is open. -/
theorem pos_lt (h : s.Inv) (hm : s.mode.busy = true) : s.pos.toNat < 18 := by
  cases hc : s.mode <;> simp [hc, Mode.busy] at hm
  · exact h.posDtd hc
  · exact lt_trans (h.posVen hc) (by decide)

theorem openDtd (h : s.Inv) (hm : s.mode = .idle) : s.openDtd.Inv :=
  (inv_iff_of_dtd rfl).mpr ⟨by simp, h.errZero (by simp [hm]), rfl, h.venResult⟩

theorem openVen (h : s.Inv) (hm : s.mode = .idle) : s.openVen.Inv :=
  (inv_iff_of_ven rfl).mpr ⟨by simp, h.errZero (by simp [hm]), rfl, h.dtdResult⟩

theorem raiseIncomplete (h : s.Inv) (hm : s.mode.busy = true) : (s.raiseIncomplete s.pos).Inv :=
  (inv_iff_of_failed rfl).mpr ⟨rfl, h.pos_lt hm, rfl, rfl⟩

theorem pushDtd (h : s.Inv) (hm : s.mode = .dtd) (b : Byte) : (s.pushDtd b).Inv := by
  obtain ⟨hpos, herr, hflag, hven⟩ := (inv_iff_of_dtd hm).mp h
  have hnext := takeByte_pos b hpos
  by_cases hlast : s.pos.toNat = 17
  · rw [pushDtd_last b hlast]
    constructor
    case venResult => simpa using hven
    all_goals simp [*, dtdLen, venLen, takeByte_buf]
  · rw [pushDtd_more b hlast]
    exact (inv_iff_of_dtd (by simpa using hm)).mpr
      ⟨by omega, by simpa using herr, by simpa using hflag, by simpa using hven⟩

theorem pushVen (h : s.Inv) (hm : s.mode = .ven) (b : Byte) : (s.pushVen b).Inv := by
  obtain ⟨hpos, herr, hflag, hdtd⟩ := (inv_iff_of_ven hm).mp h
  have hnext := takeByte_pos b (show s.pos.toNat < 18 by omega)
  by_cases hlast : s.pos.toNat = 1
  · rw [pushVen_last b hlast]
    constructor
    case dtdResult => simpa using hdtd
    all_goals simp [*, dtdLen, venLen, takeByte_buf]
  · rw [pushVen_more b hlast]
    exact (inv_iff_of_ven (by simpa using hm)).mpr
      ⟨by omega, by simpa using herr, by simpa using hflag, by simpa using hdtd⟩

end State.Inv

theorem Effect.keeps_inv {s t : State} (he : Effect s t) (h : s.Inv) : t.Inv := by
  cases he with
  | none => exact h
  | openDtd hm => exact h.openDtd hm
  | openVen hm => exact h.openVen hm
  | pushDtd hm b => exact h.pushDtd hm b
  | pushVen hm b => exact h.pushVen hm b
  | fail hm => exact h.raiseIncomplete hm

/-- Settles O14: a step is a reset, which establishes the invariant, or one of the effects of a command, each of which
keeps it. -/
theorem everyStepKeepsTheInvariant : Obligations.EveryStepKeepsTheInvariant := by
  intro s t h hstep
  obtain ⟨i, rest, -, ⟨-, rfl⟩ | ⟨-, he⟩⟩ := step_effect hstep
  · exact State.Inv.resetStep _
  · exact he.keeps_inv (h.withInputs rest)

/-- Settles O13: the state after reset is closed and cleared. -/
theorem resetStateMeetsTheInvariant : Obligations.ResetStateMeetsTheInvariant :=
  State.inv_of_cleared rfl rfl rfl rfl rfl

/-! ### Reset, outputs, and the result banks -/

/-- Settles O10: a reset step is `resetStep`, which reads neither the command nor the mode. -/
theorem resetWritesTheControlRegisters : Obligations.ResetWritesTheControlRegisters :=
  fun s w => ⟨s.resetStep, cycle_true w s, rfl, rfl, rfl, rfl, rfl, rfl, rfl, fun w' => cycle_true w' s⟩

theorem Mode.busy_iff (m : Mode) : m.busy = true ↔ m = .dtd ∨ m = .ven := by
  cases m <;> decide

theorem Mode.errIncomplete_iff (m : Mode) : m.errIncomplete = true ↔ m = .failed := by
  cases m <;> decide

/-- Settles O29: the wires are the registers, and the two functions of `mode` are true in different modes. -/
theorem outputsShowTheRegisters : Obligations.OutputsShowTheRegisters := by
  intro s
  refine ⟨s.mode.busy_iff, s.mode.errIncomplete_iff, rfl, rfl, rfl, rfl, rfl, ?_⟩
  rintro ⟨hbusy, herr⟩
  simp [State.outputs, s.mode.errIncomplete_iff.mp herr, Mode.busy] at hbusy

/-- Settles O27: of the rows of the dispatch table only the two pushes touch a bank, each its own and at its last byte. -/
theorem resultBanksChangeOnlyAtCommitOrReset : Obligations.ResultBanksChangeOnlyAtCommitOrReset := by
  intro s t w h
  obtain rfl : s.afterCmd (decodeCmd w) = t := by simpa [cycle_false] using h
  unfold State.afterCmd
  split
  case h_3 b hm hw =>
    refine ⟨?_, .inl (s.pushDtd_ven b)⟩
    rw [State.pushDtd_dtd]
    split
    · exact .inr ⟨hm, BitVec.eq_of_toNat_eq ‹_›, b, hw, rfl⟩
    · exact .inl rfl
  case h_4 b hm hw =>
    refine ⟨.inl (s.pushVen_dtd b), ?_⟩
    rw [State.pushVen_ven]
    split
    · exact .inr ⟨hm, BitVec.eq_of_toNat_eq ‹_›, b, hw, rfl⟩
    · exact .inl rfl
  all_goals exact ⟨.inl rfl, .inl rfl⟩

/-- A command keeps a valid detailed timing result, or it is an accepted `START DTD` or an `END` inside a vendor word. -/
theorem State.Inv.afterCmd_dtd {s : State} (h : s.Inv) (hv : s.dtdValid = true) (i : Instr) :
    ((s.afterCmd i).dtdValid = true ∧ (s.afterCmd i).dtd = s.dtd) ∨
      ((s.afterCmd i).dtdValid = false ∧ ((s.mode = .idle ∧ i = .startDtd) ∨ (s.mode = .ven ∧ i = .endBuffer))) := by
  have hm : s.mode ≠ .dtd := fun hm => by simp [h.dtdOpen hm] at hv
  unfold State.afterCmd
  split
  case h_1 hidle => exact .inr ⟨rfl, .inl ⟨hidle, rfl⟩⟩
  case h_3 hdtd | h_5 hdtd => exact absurd hdtd hm
  case h_4 b _ => exact .inl ⟨(s.pushVen_dtdValid b).trans hv, s.pushVen_dtd b⟩
  case h_6 hven => exact .inr ⟨rfl, .inr ⟨hven, rfl⟩⟩
  case h_2 | h_7 => exact .inl ⟨hv, rfl⟩

/-- A command keeps a valid vendor result, or it is an accepted `START VEN` or an `END` inside a timing record. -/
theorem State.Inv.afterCmd_ven {s : State} (h : s.Inv) (hv : s.venValid = true) (i : Instr) :
    ((s.afterCmd i).venValid = true ∧ (s.afterCmd i).ven = s.ven) ∨
      ((s.afterCmd i).venValid = false ∧ ((s.mode = .idle ∧ i = .startVen) ∨ (s.mode = .dtd ∧ i = .endBuffer))) := by
  have hm : s.mode ≠ .ven := fun hm => by simp [h.venOpen hm] at hv
  unfold State.afterCmd
  split
  case h_2 hidle => exact .inr ⟨rfl, .inl ⟨hidle, rfl⟩⟩
  case h_4 hven | h_6 hven => exact absurd hven hm
  case h_3 b _ => exact .inl ⟨(s.pushDtd_venValid b).trans hv, s.pushDtd_ven b⟩
  case h_5 hdtd => exact .inr ⟨rfl, .inr ⟨hdtd, rfl⟩⟩
  case h_1 | h_7 => exact .inl ⟨hv, rfl⟩

/-- Settles O28: a reset clears both flags; a command finds a valid bank's own record closed, so of its rows only the
`START` of the kind and the failing `END` of the other kind clear the flag. -/
theorem aResultStaysReadable : Obligations.AResultStaysReadable := by
  intro s t rst w h hc
  cases rst with
  | true =>
    obtain rfl : s.resetStep = t := by simpa [cycle_true] using hc
    exact ⟨fun _ => .inr ⟨rfl, .inl rfl⟩, fun _ => .inr ⟨rfl, .inl rfl⟩⟩
  | false =>
    obtain rfl : s.afterCmd (decodeCmd w) = t := by simpa [cycle_false] using hc
    exact ⟨fun hv => (h.afterCmd_dtd hv _).imp_right (And.imp_right .inr),
      fun hv => (h.afterCmd_ven hv _).imp_right (And.imp_right .inr)⟩

/-! ### Stale bytes of `buf` (rule R24) -/

namespace State.SameButStale

variable {s t : State}

theorem outputs (h : s.SameButStale t) : s.outputs = t.outputs := by
  simp [State.outputs, h.mode, h.errPos, h.dtdValid, h.venValid, h.dtd, h.ven]

theorem withInputs (h : s.SameButStale t) (l : List Input) : (s.withInputs l).SameButStale (t.withInputs l) :=
  { h with inputs := rfl }

theorem resetStep (h : s.SameButStale t) : s.resetStep.SameButStale t.resetStep := by
  constructor <;> simp [h.inputs, h.draws]

theorem openDtd (h : s.SameButStale t) : s.openDtd.SameButStale t.openDtd :=
  { h with mode := rfl, pos := rfl, dtdValid := rfl, arrived := fun _ _ _ hk => absurd hk (Nat.not_lt_zero _) }

theorem openVen (h : s.SameButStale t) : s.openVen.SameButStale t.openVen :=
  { h with mode := rfl, pos := rfl, venValid := rfl, arrived := fun _ _ _ hk => absurd hk (Nat.not_lt_zero _) }

theorem raiseIncomplete (h : s.SameButStale t) : (s.raiseIncomplete s.pos).SameButStale (t.raiseIncomplete t.pos) :=
  { h with mode := rfl, errPos := h.pos, dtdValid := rfl, venValid := rfl, arrived := nofun }

theorem commitDtd (h : s.SameButStale t) (rec : Record) : (s.commitDtd rec).SameButStale (t.commitDtd rec) :=
  { h with mode := rfl, dtd := rfl, dtdValid := rfl, arrived := nofun }

theorem commitVen (h : s.SameButStale t) (v : VenWord) : (s.commitVen v).SameButStale (t.commitVen v) :=
  { h with mode := rfl, ven := rfl, venValid := rfl, arrived := nofun }

/-- The byte taken is the same on both sides, and the bytes before it had arrived. -/
theorem takeByte (h : s.SameButStale t) (hm : s.mode.busy = true) (hpos : s.pos.toNat < 18) (b : Byte) :
    (s.takeByte b).SameButStale (t.takeByte b) := by
  have hpos' : t.pos.toNat < 18 := h.pos ▸ hpos
  have harr : ∀ (k : Nat) (hk : k < 18), k < s.pos.toNat + 1 →
      (s.buf.set s.pos.toNat b hpos)[k] = (t.buf.set t.pos.toNat b hpos')[k] := by
    intro k hk hlt
    simp only [Vector.getElem_set, ← h.pos]
    split
    · rfl
    · exact h.arrived hm k hk (by omega)
  have hnext := takeByte_pos b hpos
  rw [takeByte_inRange b hpos] at hnext ⊢
  rw [takeByte_inRange b hpos']
  exact { h with pos := congrArg (· + 1) h.pos, arrived := fun _ k hk hlt => harr k hk (hnext ▸ hlt) }

theorem pushDtd (h : s.SameButStale t) (hm : s.mode.busy = true) (hpos : s.pos.toNat < 18) (b : Byte) :
    (s.pushDtd b).SameButStale (t.pushDtd b) := by
  have htake := h.takeByte hm hpos b
  by_cases hlast : s.pos.toNat = 17
  · have hrec : s.buf.set 17 b = t.buf.set 17 b := by
      ext k hk
      rw [Vector.getElem_set, Vector.getElem_set]
      split
      · rfl
      · rw [h.arrived hm k hk (by omega)]
    rw [pushDtd_last b hlast, pushDtd_last b (h.pos ▸ hlast), hrec]
    exact htake.commitDtd _
  · rw [pushDtd_more b hlast, pushDtd_more b (h.pos ▸ hlast)]
    exact htake

theorem pushVen (h : s.SameButStale t) (hm : s.mode.busy = true) (hpos : s.pos.toNat < 18) (b : Byte) :
    (s.pushVen b).SameButStale (t.pushVen b) := by
  have htake := h.takeByte hm hpos b
  by_cases hlast : s.pos.toNat = 1
  · have hfirst : s.buf[0] = t.buf[0] := h.arrived hm 0 (by decide) (by omega)
    rw [pushVen_last b hlast, pushVen_last b (h.pos ▸ hlast), hfirst]
    exact htake.commitVen _
  · rw [pushVen_more b hlast, pushVen_more b (h.pos ▸ hlast)]
    exact htake

theorem afterCmd (h : s.SameButStale t) (hs : s.Inv) (i : Instr) : (s.afterCmd i).SameButStale (t.afterCmd i) := by
  unfold State.afterCmd
  rw [← h.mode]
  split
  case h_1 => exact h.openDtd
  case h_2 => exact h.openVen
  case h_3 _ b hm =>
    have hbusy := s.mode.busy_iff.mpr (.inl hm)
    exact h.pushDtd hbusy (hs.pos_lt hbusy) b
  case h_4 _ b hm =>
    have hbusy := s.mode.busy_iff.mpr (.inr hm)
    exact h.pushVen hbusy (hs.pos_lt hbusy) b
  case h_5 => exact h.raiseIncomplete
  case h_6 => exact h.raiseIncomplete
  case h_7 => exact h

/-- Two states that differ in stale bytes alone cycle alike. -/
theorem cycle (h : s.SameButStale t) (hs : s.Inv) {s' : State} {rst : Bool} {w : CmdWord}
    (hc : Machine.cycle rst w s = .next s') : ∃ t', Machine.cycle rst w t = .next t' ∧ s'.SameButStale t' := by
  cases rst with
  | true =>
    obtain rfl : s.resetStep = s' := by simpa [cycle_true] using hc
    exact ⟨t.resetStep, cycle_true w t, h.resetStep⟩
  | false =>
    obtain rfl : s.afterCmd (decodeCmd w) = s' := by simpa [cycle_false] using hc
    exact ⟨t.afterCmd (decodeCmd w), cycle_false w t, h.afterCmd hs _⟩

end State.SameButStale

/-- Settles O30: both states take the same input, every operation keeps the relation, and related states show the same
outputs. -/
theorem staleBytesNeverReachTheHost : Obligations.StaleBytesNeverReachTheHost := by
  intro s t s' hs h hstep
  obtain ⟨i, rest, hin, -⟩ := step_effect hstep
  rw [step_of_inputs hin] at hstep
  obtain ⟨t', ht', hrel⟩ := (h.withInputs rest).cycle (hs.withInputs rest) hstep
  exact ⟨t', (step_of_inputs (h.inputs ▸ hin)).trans ht', hrel, hrel.outputs⟩

end Sys2Proof.Machine
end

section
/-!
PROOFS of the family `20_memory.md`: the byte order of the two 16-bit words, which bytes each format's decoder accepts
and what they encode, a run as a fold, and the listing lines that bring a whole record.
-/
namespace Sys2Proof

/-! ### Byte order (rule R54) -/

/-- The low byte fills the bits a shift by 8 leaves free, so the OR is the sum. -/
theorem shiftLeft_eight_or_byte (n : Nat) (b : Byte) : n <<< 8 ||| b.toNat = n * 256 + b.toNat := by
  rw [← Nat.shiftLeft_add_eq_or_of_lt b.isLt, Nat.shiftLeft_eq]

/-- Settles O47: both words are sums of their two bytes, the one with 256 times the first, the other the second. -/
theorem byteOrderIsFixedPerField : Obligations.ByteOrderIsFixedPerField := by
  constructor
  · intro first second
    rw [be16_toNat, shiftLeft_eight_or_byte]
  · intro rec
    rw [Machine.pixelClockRaw, Machine.le16_toNat, Nat.or_comm, shiftLeft_eight_or_byte, Nat.mul_comm, Nat.add_comm]

/-! ### Which bytes a format's decoder accepts -/

theorem recordOfBytes_eq_ok_iff {bytes : List Byte} {rec : Record} :
    recordOfBytes bytes = .ok rec ↔ rec.toList = bytes := by
  constructor
  · intro h
    unfold recordOfBytes at h
    split at h
    · cases h; rfl
    · cases h
  · rintro rfl
    exact recordOfBytes_toList rec

theorem venOfBytes_eq_ok_iff {bytes : List Byte} {v : VenWord} : venOfBytes bytes = .ok v ↔ venBytes v = bytes := by
  constructor
  · intro h
    unfold venOfBytes at h
    split at h
    · cases h; exact venBytes_be16 _ _
    · cases h
  · rintro rfl
    exact venOfBytes_venBytes v

/-- The two bytes of a command word give it back (log entry 7). -/
theorem cmdOfBytes_cmdBytes (w : CmdWord) : cmdOfBytes (cmdBytes w) = .ok w := by
  have hop : (w.op.setWidth 8).toNat < 4 := by
    rw [BitVec.toNat_setWidth_of_le (by decide)]
    exact w.op.isLt
  have hjoin : w.arg.setWidth 10 ||| ((w.op.setWidth 8).setWidth 10 <<< 8) = w := by
    ext i hi
    by_cases h : i < 8
    · simp [CmdWord.arg, h, BitVec.getLsbD_eq_getElem hi]
    · simp [CmdWord.arg, CmdWord.op, h, show i - 8 < 2 by omega, show 8 + (i - 8) = i by omega,
        BitVec.getLsbD_eq_getElem hi]
  simp only [cmdOfBytes, cmdBytes, hop, if_true, hjoin]

theorem recordOfBytes_of_length_ne {bytes : List Byte} (h : bytes.length ≠ 18) :
    recordOfBytes bytes = .error .wrongLength :=
  dif_neg h

theorem venOfBytes_of_length_ne {bytes : List Byte} (h : bytes.length ≠ 2) :
    venOfBytes bytes = .error .wrongLength := by
  unfold venOfBytes
  split
  · exact absurd rfl h
  · rfl

theorem cmdOfBytes_of_length_ne {bytes : List Byte} (h : bytes.length ≠ 2) :
    cmdOfBytes bytes = .error .wrongLength := by
  unfold cmdOfBytes
  split
  · exact absurd rfl h
  · rfl

/-! ### The command map (rule R80) -/

/-- The mask `0x300` keeps the two bits of `op`. -/
theorem and_opMask (w : CmdWord) : w &&& 0x300 = w.op.setWidth 10 <<< 8 := by
  ext i hi
  interval_cases i <;> simp [CmdWord.op, BitVec.getLsbD_eq_getElem]

/-- The mask `0x301` keeps the two bits of `op` and `sel`. -/
theorem and_opSelMask (w : CmdWord) : w &&& 0x301 = w.op.setWidth 10 <<< 8 ||| (BitVec.ofBool w.sel).setWidth 10 := by
  ext i hi
  interval_cases i <;> simp [CmdWord.op, CmdWord.sel, BitVec.getLsbD_eq_getElem]

/-- A word carries, under the mask of the row it decodes to, that row's fixed bits. -/
theorem decodeCmd_and_mask (w : CmdWord) :
    w &&& (decodeCmd w).row.matchMask.2 = (decodeCmd w).row.matchMask.1 := by
  unfold decodeCmd
  split
  case isTrue hop => exact (and_opMask w).trans (by rw [hop]; rfl)
  case isFalse h0 =>
    split
    case isTrue hop => cases hsel : w.sel <;> exact (and_opSelMask w).trans (by rw [hop, hsel]; rfl)
    case isFalse h1 =>
      split
      case isTrue hop => exact (and_opMask w).trans (by rw [hop]; rfl)
      case isFalse h2 =>
        have hop : w.op = 3 := by bv_omega
        exact (and_opMask w).trans (by rw [hop]; rfl)

theorem decodeCmd_row_format (w : CmdWord) : (decodeCmd w).row.format = .cmd10 := by
  rcases Machine.decodeCmd_cases w with h | h | h | ⟨b, h⟩ | h <;> rw [h] <;> rfl

/-- What a word decodes to is encoded by a canonical word of the same meaning. -/
theorem encode_decodeCmd (w : CmdWord) : ∃ w', encode (decodeCmd w) = cmdBytes w' ∧ decodeCmd w' = decodeCmd w := by
  rcases Machine.decodeCmd_cases w with h | h | h | ⟨b, h⟩ | h <;> rw [h]
  · exact ⟨0x000, rfl, rfl⟩
  · exact ⟨0x100, rfl, rfl⟩
  · exact ⟨0x101, rfl, rfl⟩
  · exact ⟨CmdWord.pushOf b, rfl, Machine.decodeCmd_pushOf b⟩
  · exact ⟨0x300, rfl, rfl⟩

/-! ### Bytes that decode -/

/-- The canonical word of a decoded command carries the fixed bits of the same row as the word it came from. -/
theorem decode_cmd10_inversion {bytes : List Byte} {i : Instr} (h : decode .cmd10 bytes = .ok i) :
    ∃ w w', cmdOfBytes bytes = .ok w ∧ cmdOfBytes (encode i) = .ok w' ∧ decodeCmd w = i ∧ decodeCmd w' = i := by
  cases hw : cmdOfBytes bytes with
  | error e => simp [decode, hw, Except.map] at h
  | ok w =>
    obtain rfl : decodeCmd w = i := by simpa [decode, hw, Except.map] using h
    obtain ⟨w', hencode, hsame⟩ := encode_decodeCmd w
    exact ⟨w, w', rfl, hencode ▸ cmdOfBytes_cmdBytes w', rfl, hsame⟩

theorem decode_dtd18_eq_ok {bytes : List Byte} {i : Instr} (h : decode .dtd18 bytes = .ok i) :
    ∃ rec, i = .dtdUnpack rec ∧ rec.toList = bytes := by
  cases hrec : recordOfBytes bytes with
  | error e => simp [decode, hrec, Except.map] at h
  | ok rec =>
    obtain rfl : Instr.dtdUnpack rec = i := by simpa [decode, hrec, Except.map] using h
    exact ⟨rec, rfl, recordOfBytes_eq_ok_iff.mp hrec⟩

theorem decode_ven16_eq_ok {bytes : List Byte} {i : Instr} (h : decode .ven16 bytes = .ok i) :
    ∃ v, i = .venUnpack v ∧ venBytes v = bytes := by
  cases hv : venOfBytes bytes with
  | error e => simp [decode, hv, Except.map] at h
  | ok v =>
    obtain rfl : Instr.venUnpack v = i := by simpa [decode, hv, Except.map] using h
    exact ⟨v, rfl, venOfBytes_eq_ok_iff.mp hv⟩

theorem decode_of_length_ne {f : Format} {bytes : List Byte} (h : bytes.length ≠ f.bytes) :
    decode f bytes = .error .wrongLength := by
  cases f with
  | cmd10 => rw [decode, cmdOfBytes_of_length_ne h]; rfl
  | dtd18 => rw [decode, recordOfBytes_of_length_ne h]; rfl
  | ven16 => rw [decode, venOfBytes_of_length_ne h]; rfl

theorem exists_decode_of_bytesFit {f : Format} {bytes : List Byte} (h : bytesFit f bytes = true) :
    ∃ i, decode f bytes = .ok i := by
  obtain ⟨hlen, hbits⟩ : bytes.length = f.bytes ∧ _ := by simpa [bytesFit] using h
  cases f with
  | cmd10 =>
    obtain ⟨lo, hi, rfl⟩ := List.length_eq_two.mp hlen
    have hhi : hi.toNat < 4 := by
      simp only [cmdWordFits, List.getElem?_cons_succ, List.getElem?_cons_zero, Option.getD_some, decide_eq_true_eq]
        at hbits
      omega
    exact ⟨_, by rw [decode, cmdOfBytes, if_pos hhi]; rfl⟩
  | dtd18 =>
    have hrec : recordOfBytes bytes = .ok ⟨⟨bytes⟩, hlen⟩ := recordOfBytes_eq_ok_iff.mpr rfl
    exact ⟨_, by rw [decode, hrec]; rfl⟩
  | ven16 =>
    obtain ⟨first, second, rfl⟩ := List.length_eq_two.mp hlen
    exact ⟨.venUnpack (be16 first second), rfl⟩

/-- Settles O4: a record and a vendor word are their bytes; a command word and the canonical word of what it decodes to
both carry the fixed bits of their common row. -/
theorem bytesThatDecodeAreTheEncoding : Obligations.BytesThatDecodeAreTheEncoding := by
  refine ⟨?_, ?_, fun _ _ => decode_of_length_ne, fun _ _ => exists_decode_of_bytesFit⟩
  · intro f bytes i hf h
    cases f with
    | cmd10 => exact absurd rfl hf
    | dtd18 =>
      obtain ⟨rec, rfl, hrec⟩ := decode_dtd18_eq_ok h
      exact ⟨rfl, hrec⟩
    | ven16 =>
      obtain ⟨v, rfl, hv⟩ := decode_ven16_eq_ok h
      exact ⟨rfl, hv⟩
  · intro bytes i h
    obtain ⟨w, w', hw, hw', hi, hi'⟩ := decode_cmd10_inversion h
    refine ⟨hi ▸ decodeCmd_row_format w, w, w', hw, hw', hi, hi', ?_⟩
    have hfixed := decodeCmd_and_mask w
    have hfixed' := decodeCmd_and_mask w'
    rw [hi] at hfixed
    rw [hi'] at hfixed'
    exact hfixed.trans hfixed'.symm

namespace Machine

/-! ### A run is a fold (rule R59) -/

/-- The state in which one step with this input leaves the block (rule R140). -/
def State.afterInput (s : State) (i : Input) : State :=
  if i.rst then s.resetStep else s.afterCmd (decodeCmd i.cmd)

theorem cycle_eq_afterInput (i : Input) (s : State) : cycle i.rst i.cmd s = .next (s.afterInput i) := by
  unfold State.afterInput
  cases i.rst
  · exact cycle_false i.cmd s
  · exact cycle_true i.cmd s

theorem runInputs_eq_foldl (inputs : List Input) (s : State) :
    runInputs inputs s = .next (inputs.foldl State.afterInput s) := by
  induction inputs generalizing s with
  | nil => rfl
  | cons i rest ih => rw [runInputs, cycle_eq_afterInput]; exact ih _

theorem State.afterCmd_withInputs (s : State) (i : Instr) (l : List Input) :
    (s.withInputs l).afterCmd i = (s.afterCmd i).withInputs l := by
  unfold State.afterCmd
  rw [State.withInputs_mode]
  split
  case h_3 b _ => exact s.pushDtd_withInputs b l
  case h_4 b _ => exact s.pushVen_withInputs b l
  all_goals rfl

/-- The block does not read the pending inputs, and no step changes them. -/
theorem State.afterInput_withInputs (s : State) (i : Input) (l : List Input) :
    (s.withInputs l).afterInput i = (s.afterInput i).withInputs l := by
  unfold State.afterInput
  split
  · rfl
  · exact s.afterCmd_withInputs _ l

/-- A step takes the first pending input. -/
theorem step_withInputs_cons (s : State) (i : Input) (rest : List Input) :
    step (s.withInputs (i :: rest)) = .next ((s.afterInput i).withInputs rest) := by
  rw [step_of_inputs rfl, cycle_eq_afterInput]
  exact congrArg _ (s.afterInput_withInputs i rest)

theorem run_succ_of_step {M : Host.Core} {s t : M.State} (h : M.step s = .next t) (k : Nat) :
    M.run (k + 1) s = M.run k t := by
  simp only [Host.Core.run, h]

theorem core_run_withInputs (inputs : List Input) (s : State) :
    Host.Core.run core inputs.length (s.withInputs inputs) =
      .next ((inputs.foldl State.afterInput s).withInputs []) := by
  induction inputs generalizing s with
  | nil => rfl
  | cons i rest ih =>
    have hstep : core.step (s.withInputs (i :: rest)) = .next ((s.afterInput i).withInputs rest) :=
      step_withInputs_cons s i rest
    exact (run_succ_of_step hstep rest.length).trans (ih _)

theorem foldl_afterInput_withInputs (inputs : List Input) (s : State) (l : List Input) :
    inputs.foldl State.afterInput (s.withInputs l) = (inputs.foldl State.afterInput s).withInputs l := by
  induction inputs generalizing s with
  | nil => rfl
  | cons i rest ih => rw [List.foldl_cons, s.afterInput_withInputs, ih, List.foldl_cons]

/-- Settles O9: both sides are the fold of `afterInput`, which does not read the pending inputs. -/
theorem runIsTheFoldOfTheInputs : Obligations.RunIsTheFoldOfTheInputs := by
  intro s inputs
  rw [runInputs_eq_foldl, foldl_afterInput_withInputs]
  exact core_run_withInputs inputs s

/-! ### Whole records (rule R83) -/

theorem State.afterInput_ofCmd (s : State) (w : CmdWord) :
    s.afterInput (Input.ofCmd w) = s.afterCmd (decodeCmd w) :=
  rfl

theorem State.afterInput_startDtd {s : State} (hm : s.mode = .idle) : s.afterInput (Input.ofCmd 0x100) = s.openDtd := by
  rw [s.afterInput_ofCmd, show decodeCmd 0x100 = .startDtd from rfl]
  simp only [State.afterCmd, hm]

theorem State.afterInput_startVen {s : State} (hm : s.mode = .idle) : s.afterInput (Input.ofCmd 0x101) = s.openVen := by
  rw [s.afterInput_ofCmd, show decodeCmd 0x101 = .startVen from rfl]
  simp only [State.afterCmd, hm]

theorem State.afterInput_push_dtd {s : State} (hm : s.mode = .dtd) (b : Byte) :
    s.afterInput (Input.push b) = s.pushDtd b := by
  rw [Input.push, s.afterInput_ofCmd, decodeCmd_pushOf]
  simp only [State.afterCmd, hm]

theorem State.afterInput_push_ven {s : State} (hm : s.mode = .ven) (b : Byte) :
    s.afterInput (Input.push b) = s.pushVen b := by
  rw [Input.push, s.afterInput_ofCmd, decodeCmd_pushOf]
  simp only [State.afterCmd, hm]

/-- `buf` with its first bytes replaced by those that have arrived. -/
def overwrite (buf : Vector Byte 18) (bytes : List Byte) : Vector Byte 18 :=
  Vector.ofFn fun k => bytes.getD k buf[k]

theorem overwrite_nil (buf : Vector Byte 18) : overwrite buf [] = buf := by
  ext k hk
  simp [overwrite]

theorem overwrite_toList (buf : Vector Byte 18) (rec : Record) : overwrite buf rec.toList = rec := by
  ext k hk
  simp [overwrite]

/-- The next byte is written right after those that have arrived. -/
theorem overwrite_append (buf : Vector Byte 18) (bytes : List Byte) (b : Byte) (h : bytes.length < 18) :
    overwrite buf (bytes ++ [b]) = (overwrite buf bytes).set bytes.length b h := by
  ext k hk
  simp only [overwrite, Vector.getElem_ofFn, Vector.getElem_set, List.getD_eq_getElem?_getD, List.getElem?_append]
  split
  · simp [show bytes.length ≠ k by omega]
  · rcases eq_or_lt_of_le (show bytes.length ≤ k by omega) with rfl | hlt
    · simp
    · simp [show bytes.length ≠ k by omega, show k - bytes.length ≠ 0 by omega, hlt.le]

/-- `s` with a detailed timing record opened, of which these bytes have arrived. -/
def State.dtdArrived (s : State) (bytes : List Byte) : State :=
  { s.openDtd with pos := BitVec.ofNat 5 bytes.length, buf := overwrite s.buf bytes }

theorem State.dtdArrived_nil (s : State) : s.dtdArrived [] = s.openDtd := by
  rw [State.dtdArrived, overwrite_nil]; rfl

theorem State.dtdArrived_pos (s : State) {bytes : List Byte} (h : bytes.length < 18) :
    (s.dtdArrived bytes).pos.toNat = bytes.length := by
  simp only [State.dtdArrived, BitVec.toNat_ofNat]; omega

theorem State.dtdArrived_takeByte (s : State) {bytes : List Byte} (h : bytes.length < 18) (b : Byte) :
    (s.dtdArrived bytes).takeByte b = s.dtdArrived (bytes ++ [b]) := by
  have hpos := s.dtdArrived_pos h
  have hbuf : (s.dtdArrived bytes).buf.set (s.dtdArrived bytes).pos.toNat b (hpos ▸ h) =
      overwrite s.buf (bytes ++ [b]) := by
    simp only [hpos]
    exact (overwrite_append s.buf bytes b h).symm
  have hnext : (s.dtdArrived bytes).pos + 1 = BitVec.ofNat 5 (bytes ++ [b]).length := by
    rw [List.length_append, BitVec.ofNat_add]; rfl
  rw [State.takeByte_inRange b (hpos ▸ h), hbuf, hnext]
  rfl

/-- Up to 17 pushes commit nothing. -/
theorem foldl_push_openDtd (s : State) (bytes : List Byte) (h : bytes.length < 18) :
    (bytes.map Input.push).foldl State.afterInput s.openDtd = s.dtdArrived bytes := by
  induction bytes using List.reverseRecOn with
  | nil => exact s.dtdArrived_nil.symm
  | append_singleton bytes b ih =>
    rw [List.length_append, List.length_singleton] at h
    rw [List.map_append, List.foldl_append, ih (by omega), List.map_singleton, List.foldl_cons, List.foldl_nil,
      State.afterInput_push_dtd rfl, State.pushDtd_more b (by rw [s.dtdArrived_pos (by omega)]; omega),
      s.dtdArrived_takeByte (by omega)]

/-- The 18th push commits the record of all 18 bytes. -/
theorem State.dtdArrived_pushDtd_last (s : State) {bytes : List Byte} (h : bytes.length = 17) (b : Byte) :
    (s.dtdArrived bytes).pushDtd b = (s.dtdArrived (bytes ++ [b])).commitDtd (overwrite s.buf (bytes ++ [b])) := by
  have hlt : bytes.length < 18 := by omega
  rw [State.pushDtd_last b (by rw [s.dtdArrived_pos hlt, h]), s.dtdArrived_takeByte hlt, overwrite_append _ _ _ hlt]
  simp only [h]
  rfl

/-- Settles O33: `START` opens the record, 17 pushes leave 17 bytes arrived, and the 18th commits them all. -/
theorem dtdMacroUnpacksItsRecord : Obligations.DtdMacroUnpacksItsRecord := by
  intro s rec hm
  obtain ⟨bytes, b, hbytes⟩ : ∃ bytes b, rec.toList = bytes ++ [b] :=
    ⟨_, _, (List.dropLast_append_getLast (List.ne_nil_of_length_pos (by simp))).symm⟩
  have hlen : bytes.length = 17 := by simpa [hbytes] using rec.length_toList
  rw [runInputs_eq_foldl, Line.expand, List.foldl_cons, State.afterInput_startDtd hm, hbytes, List.map_append,
    List.foldl_append, foldl_push_openDtd s bytes (by omega), List.map_singleton, List.foldl_cons, List.foldl_nil,
    State.afterInput_push_dtd rfl, s.dtdArrived_pushDtd_last hlen, ← hbytes, overwrite_toList, State.dtdArrived,
    overwrite_toList, rec.length_toList]
  rfl

/-- The first byte of a vendor word waits in `buf[0]`. -/
theorem State.openVen_pushVen (s : State) (hi : Byte) :
    s.openVen.pushVen hi = { s.openVen with pos := 1, buf := s.buf.set 0 hi } := by
  rw [State.pushVen_more hi (by simp), State.takeByte_inRange hi (by simp)]
  rfl

/-- The second byte of a vendor word commits it. -/
theorem State.pushVen_second {s : State} (hpos : s.pos = 1) (lo : Byte) :
    s.pushVen lo =
      { s with mode := .idle, pos := 2, buf := s.buf.set 1 lo, ven := venUnpack (be16 s.buf[0] lo)
               venValid := true } := by
  rw [State.pushVen_last lo (by simp [hpos]), State.takeByte_inRange lo (by simp [hpos])]
  simp [hpos, State.commitVen, State.writeVen]

/-- Settles O34: `START` opens the word, the first push leaves its byte in `buf[0]`, and the second commits both. -/
theorem venMacroUnpacksItsWord : Obligations.VenMacroUnpacksItsWord := by
  intro s hi lo hm
  rw [runInputs_eq_foldl, Line.expand, List.foldl_cons, List.foldl_cons, List.foldl_cons, List.foldl_nil,
    State.afterInput_startVen hm, State.afterInput_push_ven (s := s.openVen) rfl, s.openVen_pushVen,
    State.afterInput_push_ven rfl, State.pushVen_second rfl]
  simp [State.openVen]

end Machine
end Sys2Proof
end

section
/-!
PROOFS of the family `30_encoding.md`: decoding what the encoder gives, the rows of the opcode map as disjoint sets of
words, the layout table against the formulas, and `DTD_UNPACK` as an injective function.
-/
namespace Sys2Proof

/-! ### Decoding an encoding -/

theorem decode_cmd10_cmdBytes (w : CmdWord) : decode .cmd10 (cmdBytes w) = .ok (decodeCmd w) := by
  rw [decode, cmdOfBytes_cmdBytes]; rfl

theorem decode_dtd18_of_toList_eq {bytes : List Byte} {rec : Record} (h : rec.toList = bytes) :
    decode .dtd18 bytes = .ok (.dtdUnpack rec) := by
  rw [decode, recordOfBytes_eq_ok_iff.mpr h]; rfl

theorem decode_ven16_of_venBytes_eq {bytes : List Byte} {v : VenWord} (h : venBytes v = bytes) :
    decode .ven16 bytes = .ok (.venUnpack v) := by
  rw [decode, venOfBytes_eq_ok_iff.mpr h]; rfl

theorem decodeAs_of_format_cmd10 {r : Row} (h : r.format = .cmd10) (bytes : List Byte) :
    decodeAs r bytes = decodeAsCommand r bytes := by
  cases r
  case nop | startDtd | startVen | push | endBuffer => rfl
  all_goals cases h

/-- Every command is what some word of the command port decodes to. -/
theorem exists_decodeCmd_of_format_cmd10 {i : Instr} (h : i.row.format = .cmd10) : ∃ w, decodeCmd w = i := by
  cases i
  case nop => exact ⟨0x000, rfl⟩
  case startDtd => exact ⟨0x100, rfl⟩
  case startVen => exact ⟨0x101, rfl⟩
  case push b => exact ⟨CmdWord.pushOf b, Machine.decodeCmd_pushOf b⟩
  case endBuffer => exact ⟨0x300, rfl⟩
  all_goals cases h

theorem decode_encode_of_format_cmd10 {i : Instr} (h : i.row.format = .cmd10) :
    decode .cmd10 (encode i) = .ok i := by
  obtain ⟨w, rfl⟩ := exists_decodeCmd_of_format_cmd10 h
  obtain ⟨w', hencode, hsame⟩ := encode_decodeCmd w
  rw [hencode, decode_cmd10_cmdBytes, hsame]

/-- The bytes of an instruction, read as its own row: a command's word selects its row, and a record or vendor word is
its bytes. -/
theorem decodeAs_encode (i : Instr) : decodeAs i.row (encode i) = .ok i := by
  cases i
  case nop | startDtd | startVen | push | endBuffer =>
    rw [decodeAs_of_format_cmd10 rfl, decodeAsCommand, decode_encode_of_format_cmd10 rfl]
    exact if_pos rfl
  case venUnpack v | venLetter0 v | venLetter1 v | venLetter2 v | venInRange v =>
    simp only [Instr.row, encode, decodeAs, venOfBytes_venBytes]; rfl
  all_goals simp only [Instr.row, encode, decodeAs, recordOfBytes_toList]; rfl

/-- Settles O3: each byte form gives back its word, record or vendor word, and a word what it was encoded from. -/
theorem decodingAnEncodedInstructionGivesItBack : Obligations.DecodingAnEncodedInstructionGivesItBack :=
  ⟨fun i _ => decodeAs_encode i, fun _ => decode_encode_of_format_cmd10,
    fun _ _ _ hbytes => decode_dtd18_of_toList_eq hbytes.symm,
    fun _ _ _ hbytes => decode_ven16_of_venBytes_eq hbytes.symm⟩

/-- Settles O1: the command words by evaluation, the record and the vendor word by their own bytes. -/
theorem writtenOutWordsDecode : Obligations.WrittenOutWordsDecode :=
  ⟨rfl, rfl, rfl, rfl, rfl, rfl, rfl, rfl, rfl, rfl, decode_ven16_of_venBytes_eq rfl, decode_dtd18_of_toList_eq rfl⟩

/-! ### The rows of the opcode map (rules R80 and R81) -/

theorem Row.format_eq_cmd10_iff (r : Row) :
    r.format = .cmd10 ↔ r ∈ [Row.nop, .startDtd, .startVen, .push, .endBuffer] := by
  cases r <;> decide

/-- Two different command rows disagree on a bit that both of them fix. -/
theorem Row.eq_of_fixed_bits_agree : ∀ r ∈ [Row.nop, .startDtd, .startVen, .push, .endBuffer],
    ∀ r' ∈ [Row.nop, .startDtd, .startVen, .push, .endBuffer],
      r.matchMask.1 &&& r'.matchMask.2 = r'.matchMask.1 &&& r.matchMask.2 → r = r' := by
  decide

/-- No word carries the fixed bits of two command rows. -/
theorem Row.eq_of_and_mask_eq_match {r r' : Row} (hr : r.format = .cmd10) (hr' : r'.format = .cmd10) {w : CmdWord}
    (h : w &&& r.matchMask.2 = r.matchMask.1) (h' : w &&& r'.matchMask.2 = r'.matchMask.1) : r = r' := by
  refine Row.eq_of_fixed_bits_agree r (r.format_eq_cmd10_iff.mp hr) r' (r'.format_eq_cmd10_iff.mp hr') ?_
  rw [← h, ← h', BitVec.and_assoc, BitVec.and_assoc, BitVec.and_comm r.matchMask.2]

theorem decodeCmd_row_eq_iff (w : CmdWord) {r : Row} (hr : r.format = .cmd10) :
    (decodeCmd w).row = r ↔ w &&& r.matchMask.2 = r.matchMask.1 := by
  constructor
  · rintro rfl
    exact decodeCmd_and_mask w
  · exact Row.eq_of_and_mask_eq_match (decodeCmd_row_format w) hr (decodeCmd_and_mask w)

theorem arg_of_decodeCmd_eq_push {w : CmdWord} {b : Byte} (h : decodeCmd w = .push b) : w.arg = b := by
  unfold decodeCmd at h
  split at h
  · cases h
  · split at h
    · split at h <;> cases h
    · split at h
      · exact Instr.push.inj h
      · cases h

theorem CmdWord.arg_toNat (w : CmdWord) : w.arg.toNat = w.toNat % 256 :=
  BitVec.extractLsb'_toNat 0 8 w

theorem CmdWord.pushOf_eq_ofNat (b : Byte) : CmdWord.pushOf b = BitVec.ofNat 10 (0x200 + b.toNat) := by
  apply BitVec.eq_of_toNat_eq
  have hsum : 512 ||| b.toNat = 512 + b.toNat := shiftLeft_eight_or_byte 2 b
  simp only [CmdWord.pushOf, BitVec.toNat_or, BitVec.toNat_setWidth, BitVec.toNat_ofNat]
  rw [Nat.mod_eq_of_lt (a := b.toNat) (by omega)]
  exact hsum.trans (Nat.mod_eq_of_lt (by omega)).symm

/-- The number of words of each row. -/
theorem words_per_row :
    ∀ p ∈ [(Row.nop, 256), (Row.startDtd, 128), (Row.startVen, 128), (Row.push, 256), (Row.endBuffer, 256)],
      ((List.range 1024).filter fun w => (decodeCmd (BitVec.ofNat 10 w)).row = p.1).length = p.2 := by
  decide +kernel

/-- The canonical words of the commands without an operand. -/
theorem canonical_words :
    ∀ p ∈ [(Instr.nop, (0x000 : CmdWord)), (.startDtd, 0x100), (.startVen, 0x101), (.endBuffer, 0x300)],
      encode p.1 = cmdBytes p.2 ∧ decodeCmd p.2 = p.1 := by
  decide

/-- Settles O2: a word carries the fixed bits of the row it decodes to, and those of no other row. -/
theorem everyCommandWordSelectsItsRow : Obligations.EveryCommandWordSelectsItsRow := by
  refine ⟨fun w _ => decodeCmd_row_eq_iff w, decodeCmd_row_format, ?_, fun r n => words_per_row (r, n),
    fun i w => canonical_words (i, w), ?_⟩
  · intro w b h
    rw [← arg_of_decodeCmd_eq_push h, w.arg_toNat]
  · intro b
    rw [encode, CmdWord.pushOf_eq_ofNat]

namespace Machine

/-! ### The layout table (rule R71) -/

/-- The reassembly pattern of rule R72 on natural numbers. -/
theorem join_toNat_or {n m w : Nat} (low : BitVec n) (high : BitVec m) (hn : n ≤ 8) (hw : 8 + m ≤ w) :
    (join w low high).toNat = low.toNat ||| high.toNat <<< 8 := by
  have hlow : low.toNat < 2 ^ 8 := lt_of_lt_of_le low.isLt (Nat.pow_le_pow_right (by decide) hn)
  rw [join_toNat low high hn hw, Nat.or_comm, ← Nat.shiftLeft_add_eq_or_of_lt hlow, Nat.shiftLeft_eq]
  omega

/-- A row moves a bit field of its byte. -/
theorem LayoutRow.part_eq (r : LayoutRow) (rec : Record) :
    r.part rec = (rec[r.byte].extractLsb' r.lo r.width).toNat <<< r.resultLo := by
  rw [BitVec.extractLsb'_toNat]; rfl

/-- A field of one row, which copies a whole byte. -/
theorem extractField_of_copy {f : Field} {k : Fin 18}
    (h : (layout.filter fun r => r.field = f) = [⟨k, 7, 0, f, 0⟩]) (rec : Record) :
    extractField f rec = rec[k].toNat := by
  simp only [extractField, h, List.foldl_cons, List.foldl_nil, Nat.zero_or, LayoutRow.part_eq, LayoutRow.width]
  exact congrArg BitVec.toNat BitVec.extractLsb'_eq_self

/-- A field of two rows, one at result bit 0 and one at result bit 8, is the reassembly of their parts. -/
theorem extractField_of_pair {f : Field} {low high : Fin 18} {hi lo hi' lo' w : Nat}
    (h : (layout.filter fun r => r.field = f) = [⟨low, hi, lo, f, 0⟩, ⟨high, hi', lo', f, 8⟩])
    (hlow : hi - lo + 1 ≤ 8) (hhigh : 8 + (hi' - lo' + 1) ≤ w) (rec : Record) :
    extractField f rec =
      (join w (rec[low].extractLsb' lo (hi - lo + 1)) (rec[high].extractLsb' lo' (hi' - lo' + 1))).toNat := by
  rw [join_toNat_or _ _ hlow hhigh]
  simp [extractField, h, LayoutRow.part_eq, LayoutRow.width]

theorem extractField_eq_computedField (f : Field) (rec : Record) : extractField f rec = computedField f rec := by
  cases f
  case hBorder | vBorder | features => rw [extractField_of_copy rfl]; rfl
  case raw =>
    rw [extractField_of_pair (w := 16) rfl (by decide) (by decide), BitVec.extractLsb'_eq_self,
      BitVec.extractLsb'_eq_self]
    rfl
  case vFrontPorch | vSyncWidth => rw [extractField_of_pair (w := 10) rfl (by decide) (by decide)]; rfl
  case hFrontPorch | hSyncWidth =>
    rw [extractField_of_pair (w := 10) rfl (by decide) (by decide), BitVec.extractLsb'_eq_self]; rfl
  case hActive | hBlanking | vActive | vBlanking | hSize | vSize =>
    rw [extractField_of_pair (w := 12) rfl (by decide) (by decide), BitVec.extractLsb'_eq_self]; rfl

/-- Ten times a 16-bit value has at most 20 bits (rule R101). -/
theorem pixelClock_toNat (rec : Record) : (pixelClock rec).toNat = (pixelClockRaw rec).toNat * 10 := by
  simp only [pixelClock, BitVec.toNat_mul, BitVec.toNat_setWidth, show (10 : BitVec 20).toNat = 10 from rfl]
  omega

/-- Settles O45: each field is one copied byte, or the reassembly of the parts its two rows name. -/
theorem formulasFollowTheLayoutTable : Obligations.FormulasFollowTheLayoutTable := by
  refine ⟨extractField_eq_computedField, fun rec => ?_⟩
  rw [extractField_eq_computedField]
  exact pixelClock_toNat rec

/-! ### Every bit of a record counts (rule R73) -/

theorem one_row_reads_each_bit :
    ∀ (byte : Fin 18) (bit : Fin 8), (layout.filter fun r => r.reads byte bit).length = 1 := by
  decide +kernel

/-- The parts of a reassembled field can be read back. -/
theorem join_inj {n m w : Nat} {low low' : BitVec n} {high high' : BitVec m} (hn : n ≤ 8) (hw : 8 + m ≤ w)
    (h : join w low high = join w low' high') : low = low' ∧ high = high' := by
  have hlow : low.toNat < 2 ^ 8 := lt_of_lt_of_le low.isLt (Nat.pow_le_pow_right (by decide) hn)
  have hlow' : low'.toNat < 2 ^ 8 := lt_of_lt_of_le low'.isLt (Nat.pow_le_pow_right (by decide) hn)
  have hsum := congrArg BitVec.toNat h
  rw [join_toNat _ _ hn hw, join_toNat _ _ hn hw] at hsum
  exact ⟨BitVec.eq_of_toNat_eq (by omega), BitVec.eq_of_toNat_eq (by omega)⟩

theorem byte_eq_of_nibbles {a b : Byte} (hhi : hiNibble a = hiNibble b) (hlo : loNibble a = loNibble b) : a = b := by
  have hhi := congrArg BitVec.toNat hhi
  have hlo := congrArg BitVec.toNat hlo
  rw [hiNibble_toNat, hiNibble_toNat] at hhi
  rw [loNibble_toNat, loNibble_toNat] at hlo
  exact BitVec.eq_of_toNat_eq (by omega)

theorem byte_eq_of_bitPairs {a b : Byte} (h6 : bitPair a 6 = bitPair b 6) (h4 : bitPair a 4 = bitPair b 4)
    (h2 : bitPair a 2 = bitPair b 2) (h0 : bitPair a 0 = bitPair b 0) : a = b := by
  have h6 := congrArg BitVec.toNat h6
  have h4 := congrArg BitVec.toNat h4
  have h2 := congrArg BitVec.toNat h2
  have h0 := congrArg BitVec.toNat h0
  rw [bitPair_toNat, bitPair_toNat] at h6 h4 h2 h0
  exact BitVec.eq_of_toNat_eq (by omega)

/-- The clock is ten times the reassembly of the first two bytes, so it gives both back. -/
theorem pixelClock_inj {rec rec' : Record} (h : pixelClock rec = pixelClock rec') :
    rec[0] = rec'[0] ∧ rec[1] = rec'[1] := by
  have hclock := congrArg BitVec.toNat h
  rw [pixelClock_toNat, pixelClock_toNat] at hclock
  have hraw : pixelClockRaw rec = pixelClockRaw rec' := BitVec.eq_of_toNat_eq (by omega)
  exact join_inj (w := 16) (by decide) (by decide) hraw

/-- Two 12-bit fields that share a byte, each taking one nibble of it, give all three bytes back. -/
theorem join_nibbles_inj {a b c a' b' c' : Byte} (ha : join 12 a (hiNibble c) = join 12 a' (hiNibble c'))
    (hb : join 12 b (loNibble c) = join 12 b' (loNibble c')) : a = a' ∧ b = b' ∧ c = c' := by
  obtain ⟨ha, hhi⟩ := join_inj (by decide) (by decide) ha
  obtain ⟨hb, hlo⟩ := join_inj (by decide) (by decide) hb
  exact ⟨ha, hb, byte_eq_of_nibbles hhi hlo⟩

/-- The four porch and sync fields give back their three low bytes and the byte whose bit pairs they share. -/
theorem porches_inj {rec rec' : Record} (hhf : hFrontPorch rec = hFrontPorch rec')
    (hhs : hSyncWidth rec = hSyncWidth rec') (hvf : vFrontPorch rec = vFrontPorch rec')
    (hvs : vSyncWidth rec = vSyncWidth rec') :
    rec[8] = rec'[8] ∧ rec[9] = rec'[9] ∧ rec[10] = rec'[10] ∧ rec[11] = rec'[11] := by
  obtain ⟨h8, h6⟩ := join_inj (by decide) (by decide) hhf
  obtain ⟨h9, h4⟩ := join_inj (by decide) (by decide) hhs
  obtain ⟨hhi, h2⟩ := join_inj (by decide) (by decide) hvf
  obtain ⟨hlo, h0⟩ := join_inj (by decide) (by decide) hvs
  exact ⟨h8, h9, byte_eq_of_nibbles hhi hlo, byte_eq_of_bitPairs h6 h4 h2 h0⟩

theorem dtdUnpack_injective : Function.Injective dtdUnpack := by
  intro rec rec' h
  simp only [dtdUnpack, DtdBank.mk.injEq] at h
  obtain ⟨hclock, hha, hhb, hva, hvb, hhf, hhs, hvf, hvs, hhz, hvz, h15, h16, h17, -⟩ := h
  obtain ⟨h0, h1⟩ := pixelClock_inj hclock
  obtain ⟨h2, h3, h4⟩ := join_nibbles_inj hha hhb
  obtain ⟨h5, h6, h7⟩ := join_nibbles_inj hva hvb
  obtain ⟨h8, h9, h10, h11⟩ := porches_inj hhf hhs hvf hvs
  obtain ⟨h12, h13, h14⟩ := join_nibbles_inj hhz hvz
  refine Vector.ext fun k hk => ?_
  interval_cases k <;> assumption

/-- Settles O46: the table is counted bit by bit, and every byte of a record can be put together again from the parts
that `DTD_UNPACK` hands out. -/
theorem everyRecordBitReachesOneResultBit : Obligations.EveryRecordBitReachesOneResultBit :=
  ⟨one_row_reads_each_bit, fun _ _ h => dtdUnpack_injective h⟩

end Machine
end Sys2Proof
end

section
/-!
PROOFS of the family `40_dtd_unpack.md`: each result as a natural number, which bytes it reads, and the same values
through the `PUSH` that commits a record.
-/
namespace Sys2Proof.Machine

/-! ### The results as natural numbers (rules R101 to R117) -/

section Values

variable (rec : Record)

theorem pixelClockRaw_toNat : (pixelClockRaw rec).toNat = rec[0].toNat ||| rec[1].toNat <<< 8 :=
  join_toNat_or (w := 16) rec[0] rec[1] (by decide) (by decide)

theorem pixelClock_toNat_or : (pixelClock rec).toNat = (rec[0].toNat ||| rec[1].toNat <<< 8) * 10 := by
  rw [pixelClock_toNat, pixelClockRaw_toNat]

/-- A 12-bit field whose high bits are the upper nibble of its shared byte. -/
theorem join_hiNibble_toNat (low shared : Byte) :
    (join 12 low (hiNibble shared)).toNat = low.toNat ||| (shared.toNat / 16) <<< 8 := by
  rw [join_toNat_or _ _ (by decide) (by decide), hiNibble_toNat]

/-- A 12-bit field whose high bits are the lower nibble of its shared byte. -/
theorem join_loNibble_toNat (low shared : Byte) :
    (join 12 low (loNibble shared)).toNat = low.toNat ||| (shared.toNat % 16) <<< 8 := by
  rw [join_toNat_or _ _ (by decide) (by decide), loNibble_toNat]

theorem hActive_toNat : (hActive rec).toNat = rec[2].toNat ||| (rec[4].toNat / 16) <<< 8 :=
  join_hiNibble_toNat _ _

theorem hBlanking_toNat : (hBlanking rec).toNat = rec[3].toNat ||| (rec[4].toNat % 16) <<< 8 :=
  join_loNibble_toNat _ _

theorem vActive_toNat : (vActive rec).toNat = rec[5].toNat ||| (rec[7].toNat / 16) <<< 8 :=
  join_hiNibble_toNat _ _

theorem vBlanking_toNat : (vBlanking rec).toNat = rec[6].toNat ||| (rec[7].toNat % 16) <<< 8 :=
  join_loNibble_toNat _ _

theorem hSize_toNat : (hSize rec).toNat = rec[12].toNat ||| (rec[14].toNat / 16) <<< 8 :=
  join_hiNibble_toNat _ _

theorem vSize_toNat : (vSize rec).toNat = rec[13].toNat ||| (rec[14].toNat % 16) <<< 8 :=
  join_loNibble_toNat _ _

theorem hFrontPorch_toNat : (hFrontPorch rec).toNat = rec[8].toNat ||| (rec[11].toNat / 64) <<< 8 := by
  have htop : rec[11].toNat / 2 ^ 6 % 4 = rec[11].toNat / 64 := by omega
  rw [hFrontPorch, join_toNat_or _ _ (by decide) (by decide), bitPair_toNat, htop]

theorem hSyncWidth_toNat : (hSyncWidth rec).toNat = rec[9].toNat ||| (rec[11].toNat / 16 % 4) <<< 8 := by
  rw [hSyncWidth, join_toNat_or _ _ (by decide) (by decide), bitPair_toNat]; rfl

theorem vFrontPorch_toNat :
    (vFrontPorch rec).toNat = rec[10].toNat / 16 ||| (rec[11].toNat / 4 % 4) <<< 8 := by
  rw [vFrontPorch, join_toNat_or _ _ (by decide) (by decide), hiNibble_toNat, bitPair_toNat]; rfl

theorem vSyncWidth_toNat : (vSyncWidth rec).toNat = rec[10].toNat % 16 ||| (rec[11].toNat % 4) <<< 8 := by
  rw [vSyncWidth, join_toNat_or _ _ (by decide) (by decide), loNibble_toNat, bitPair_toNat, Nat.pow_zero, Nat.div_one]

/-- A nibble joined at a shift of 8 leaves the four bits above it empty (rules R8, R108, R109). -/
theorem join_nibble_gap (low : BitVec 4) (high : BitVec 2) : (join 10 low high).extractLsb' 4 4 = 0 := by
  have hsum := join_toNat (w := 10) low high (by decide) (by decide)
  apply BitVec.eq_of_toNat_eq
  rw [BitVec.extractLsb'_toNat, hsum, Nat.shiftRight_eq_div_pow]
  simp only [BitVec.ofNat_eq_ofNat, BitVec.toNat_zero]
  omega

/-- 783 is a full nibble and a full bit pair, 15 + 256 * 3 (rules R108, R109). -/
theorem join_nibble_le (low : BitVec 4) (high : BitVec 2) : (join 10 low high).toNat ≤ 783 := by
  rw [join_toNat low high (by decide) (by decide)]
  omega

theorem tagNonzero_iff_raw : tagNonzero rec = true ↔ (pixelClockRaw rec).toNat ≠ 0 := by
  simp [tagNonzero, tagNonzeroFlag, BitVec.toNat_eq]

theorem tagNonzero_iff_bytes : tagNonzero rec = true ↔ rec[0] ≠ 0 ∨ rec[1] ≠ 0 := by
  simp only [tagNonzero_iff_raw, pixelClockRaw, le16_toNat, BitVec.toNat_ne, BitVec.ofNat_eq_ofNat, BitVec.toNat_zero]
  omega

theorem tagNonzero_iff_clock : tagNonzero rec = true ↔ pixelClock rec ≠ 0 := by
  simp only [tagNonzero_iff_raw, pixelClock_toNat, BitVec.toNat_ne, BitVec.ofNat_eq_ofNat, BitVec.toNat_zero]
  omega

/-- An OR of parts that lie side by side is their sum (rule R117). -/
theorem or_shiftLeft_eight {low : Nat} (high : Nat) (h : low < 256) : low ||| high <<< 8 = low + 256 * high := by
  rw [Nat.or_comm, ← Nat.shiftLeft_add_eq_or_of_lt h, Nat.shiftLeft_eq]
  omega

end Values

/-- Settles O36: the product of a 16-bit value and 10 fits in 20 bits. -/
theorem pixelClockIsTenTimesTheRawValue : Obligations.PixelClockIsTenTimesTheRawValue :=
  fun rec _ => ⟨_, rfl, rfl, pixelClock_toNat_or rec⟩

/-- Settles O37: each field is a byte joined with a nibble. -/
theorem twelveBitFieldsJoinAByteAndANibble : Obligations.TwelveBitFieldsJoinAByteAndANibble :=
  fun rec _ =>
    ⟨⟨_, rfl, rfl, hActive_toNat rec⟩, ⟨_, rfl, rfl, hBlanking_toNat rec⟩, ⟨_, rfl, rfl, vActive_toNat rec⟩,
      ⟨_, rfl, rfl, vBlanking_toNat rec⟩, ⟨_, rfl, rfl, hSize_toNat rec⟩, ⟨_, rfl, rfl, vSize_toNat rec⟩⟩

/-- Settles O38: each field is a byte joined with a bit pair. -/
theorem horizontalPorchFieldsJoinAByteAndABitPair : Obligations.HorizontalPorchFieldsJoinAByteAndABitPair :=
  fun rec _ => ⟨⟨_, rfl, rfl, hFrontPorch_toNat rec⟩, ⟨_, rfl, rfl, hSyncWidth_toNat rec⟩⟩

/-- Settles O39: each field is a nibble joined, at a shift of 8, with a bit pair. -/
theorem verticalPorchFieldsLeaveAGap : Obligations.VerticalPorchFieldsLeaveAGap :=
  fun rec _ =>
    ⟨⟨_, rfl, rfl, vFrontPorch_toNat rec, join_nibble_gap _ _, join_nibble_le _ _⟩,
      ⟨_, rfl, rfl, vSyncWidth_toNat rec, join_nibble_gap _ _, join_nibble_le _ _⟩⟩

/-- Settles O41: the raw value is zero exactly when both of its bytes are, and so is ten times it. -/
theorem tagNonzeroTestsTheFirstTwoBytes : Obligations.TagNonzeroTestsTheFirstTwoBytes :=
  fun rec _ => ⟨_, rfl, rfl, tagNonzero_iff_bytes rec, tagNonzero_iff_clock rec⟩

/-- Settles O44: the OR form of each value, with each OR taken as the sum of its parts. -/
theorem resultsAreTheNaturalNumbers : Obligations.ResultsAreTheNaturalNumbers := by
  refine ⟨fun _ high h => or_shiftLeft_eight high h, fun rec s => ⟨_, rfl, rfl, ?_⟩⟩
  simp (disch := omega) only [← or_shiftLeft_eight]
  exact ⟨pixelClock_toNat_or rec, hActive_toNat rec, hBlanking_toNat rec, vActive_toNat rec, vBlanking_toNat rec,
    hFrontPorch_toNat rec, hSyncWidth_toNat rec, vFrontPorch_toNat rec, vSyncWidth_toNat rec, hSize_toNat rec,
    vSize_toNat rec, rfl, rfl, rfl, pixelClockRaw_toNat rec ▸ tagNonzero_iff_raw rec⟩

/-- The last bank written stands. -/
theorem State.writeDtd_writeDtd (s : State) (bank bank' : DtdBank) :
    (s.writeDtd bank).writeDtd bank' = s.writeDtd bank' :=
  rfl

/-- Settles O42: each row fills its own register of the bank, and the fifteen rows fill all fifteen. -/
theorem dtdUnpackIsItsFifteenResults : Obligations.DtdUnpackIsItsFifteenResults := by
  refine fun rec s => ⟨_, rfl, rfl, ?_⟩
  simp only [execAll, exec, execDtdPixelClock, execDtdHActive, execDtdHBlanking, execDtdVActive, execDtdVBlanking,
    execDtdHFrontPorch, execDtdHSyncWidth, execDtdVFrontPorch, execDtdVSyncWidth, execDtdHSize, execDtdVSize,
    execDtdHBorder, execDtdVBorder, execDtdFeatures, execDtdTagNonzero, State.writeDtd_dtd, State.writeDtd_writeDtd]
  rfl

/-! ### Which bytes a result reads (rule R116) -/

/-- What is computed from one byte does not see another. -/
theorem byte_of_set_ne {i k : Fin 18} (hk : k ≠ i) (rec : Record) (b : Byte) : (rec.set k b)[i] = rec[i] :=
  Vector.getElem_set_ne _ _ fun h => hk (Fin.ext h)

/-- What is computed from two bytes does not see a third. -/
theorem operands_of_set {α : Type} {i j k : Fin 18} (f : Byte → Byte → α) (hk : k ∉ [i, j]) (rec : Record)
    (b : Byte) : f (rec.set k b)[i] (rec.set k b)[j] = f rec[i] rec[j] := by
  simp only [List.mem_cons, List.not_mem_nil, or_false, not_or] at hk
  obtain ⟨hki, hkj⟩ := hk
  rw [byte_of_set_ne hki, byte_of_set_ne hkj]

/-- Settles O43: each result is a function of the two bytes, or the one, that its formula names. -/
theorem eachResultReadsOnlyItsOperands : Obligations.EachResultReadsOnlyItsOperands :=
  fun rec k b =>
    have hi {low shared : Fin 18} (hk : k ∉ [low, shared]) :=
      operands_of_set (fun x y => join 12 x (hiNibble y)) hk rec b
    have lo {low shared : Fin 18} (hk : k ∉ [low, shared]) :=
      operands_of_set (fun x y => join 12 x (loNibble y)) hk rec b
    ⟨fun hk => ⟨operands_of_set (fun x y => (le16 x y).setWidth 20 * 10) hk rec b,
        operands_of_set (fun x y => tagNonzeroFlag (le16 x y)) hk rec b⟩,
      hi, lo, hi, lo,
      fun hk => operands_of_set (fun x y => join 10 x (bitPair y 6)) hk rec b,
      fun hk => operands_of_set (fun x y => join 10 x (bitPair y 4)) hk rec b,
      fun hk => ⟨operands_of_set (fun x y => join 10 (hiNibble x) (bitPair y 2)) hk rec b,
        operands_of_set (fun x y => join 10 (loNibble x) (bitPair y 0)) hk rec b⟩,
      hi, lo, fun hk => byte_of_set_ne hk rec b, fun hk => byte_of_set_ne hk rec b, fun hk => byte_of_set_ne hk rec b⟩

/-- The last byte of a record is read by `features` and by no other result (rule R114). -/
theorem dtdUnpack_set_last (rec : Record) (b : Byte) :
    dtdUnpack (rec.set 17 b) = { dtdUnpack rec with features := b } := by
  obtain ⟨hraw, hha, hhb, hva, hvb, hhf, hhs, hvporch, hhz, hvz, hhborder, hvborder, -⟩ :=
    eachResultReadsOnlyItsOperands rec 17 b
  obtain ⟨hclock, htag⟩ := hraw (by decide)
  obtain ⟨hvf, hvs⟩ := hvporch (by decide)
  rw [DtdBank.mk.injEq]
  exact ⟨hclock, hha (by decide), hhb (by decide), hva (by decide), hvb (by decide), hhf (by decide), hhs (by decide),
    hvf, hvs, hhz (by decide), hvz (by decide), hhborder (by decide), hvborder (by decide),
    Vector.getElem_set_self _, htag⟩

/-- Settles O40: the three copies are their bytes, and the last byte is an operand of `features` alone. -/
theorem bordersAndFeaturesAreCopied : Obligations.BordersAndFeaturesAreCopied :=
  fun rec _ => ⟨rfl, rfl, rfl, dtdUnpack_set_last rec⟩

/-! ### The `PUSH` that commits a record (rules R144 and R146) -/

section Commit

variable {s : State} {rec : Record}

/-- The `PUSH` that finds 17 bytes in `buf` writes the 18th and commits all of `buf`. -/
theorem exec_push_eighteenth (hm : s.mode = .dtd) (hpos : s.pos = 17) (b : Byte) :
    exec (.push b) s =
      .next { s with mode := .idle, pos := 18, buf := s.buf.set 17 b, dtd := dtdUnpack (s.buf.set 17 b)
                     dtdValid := true } := by
  have hpush : exec (.push b) s = .next (s.pushDtd b) := by simp only [exec, execPush, hm]
  rw [hpush, State.pushDtd_last b (by simp [hpos]), State.takeByte_inRange b (by simp [hpos])]
  simp [hpos, State.commitDtd, State.writeDtd]

/-- With the first 17 bytes of a record arrived, the last byte written makes the record, but for that byte. -/
theorem set_last_of_arrived (hbuf : ∀ (k : Nat) (h : k < 17), s.buf[k] = rec[k]) (b : Byte) :
    s.buf.set 17 b = rec.set 17 b := by
  refine Vector.ext fun k hk => ?_
  rw [Vector.getElem_set, Vector.getElem_set]
  split
  · rfl
  · exact hbuf k (by omega)

/-- The `PUSH` that brings the 18th byte of a record commits that record. -/
theorem exec_push_last_of_arrived (hm : s.mode = .dtd) (hpos : s.pos = 17)
    (hbuf : ∀ (k : Nat) (h : k < 17), s.buf[k] = rec[k]) :
    exec (.push rec[17]) s =
      .next { s with mode := .idle, pos := 18, buf := rec, dtd := dtdUnpack rec, dtdValid := true } := by
  rw [exec_push_eighteenth hm hpos, set_last_of_arrived hbuf, Vector.set_getElem_self]

end Commit

/-- Settles O53: the bank a commit leaves is `DTD_UNPACK` of the record. -/
theorem commitWritesTheClockAndTheTwelveBitFields : Obligations.CommitWritesTheClockAndTheTwelveBitFields :=
  fun _ rec hm hpos hbuf =>
    ⟨_, exec_push_last_of_arrived hm hpos hbuf, pixelClock_toNat_or rec, hActive_toNat rec, hBlanking_toNat rec,
      vActive_toNat rec, vBlanking_toNat rec, hSize_toNat rec, vSize_toNat rec⟩

/-- Settles O54: the bank a commit leaves is `DTD_UNPACK` of the record, which reads the last byte in `features`
alone. -/
theorem commitWritesThePorchesTheCopiesAndTheTag : Obligations.CommitWritesThePorchesTheCopiesAndTheTag := by
  intro s rec hm hpos hbuf
  refine ⟨_, exec_push_last_of_arrived hm hpos hbuf, hFrontPorch_toNat rec, hSyncWidth_toNat rec,
    vFrontPorch_toNat rec, join_nibble_gap _ _, join_nibble_le _ _, vSyncWidth_toNat rec, join_nibble_gap _ _,
    join_nibble_le _ _, rfl, rfl, rfl, tagNonzero_iff_bytes rec, tagNonzero_iff_clock rec, fun b => ?_⟩
  rw [exec_push_eighteenth hm hpos, set_last_of_arrived hbuf, dtdUnpack_set_last]

end Sys2Proof.Machine
end

section
/-!
PROOFS of the family `41_vendor_unpack.md`: the letters and the range flag as natural numbers, bit 15 of the word, the
inverse packing, and the same values through the `PUSH` that commits a word.
-/
namespace Sys2Proof.Machine

/-! ### The results as natural numbers (rules R131 to R135) -/

section Values

variable (v : VenWord)

theorem letterCode_lt (shift : Nat) : (letterCode v shift).toNat < 32 := by
  rw [letterCode_toNat]; exact Nat.mod_lt _ (by decide)

/-- The letter made from the code at any shift. -/
theorem charCode_letterCode_toNat (shift : Nat) :
    (charCode (letterCode v shift)).toNat = v.toNat / 2 ^ shift % 32 + 64 := by
  rw [charCode_toNat _ (letterCode_lt v shift), letterCode_toNat]

theorem letter0_toNat : (letter0 v).toNat = v.toNat / 1024 % 32 + 64 :=
  charCode_letterCode_toNat v 10

theorem letter1_toNat : (letter1 v).toNat = v.toNat / 32 % 32 + 64 :=
  charCode_letterCode_toNat v 5

theorem letter2_toNat : (letter2 v).toNat = v.toNat % 32 + 64 := by
  rw [letter2, charCode_letterCode_toNat, Nat.pow_zero, Nat.div_one]

/-- 64 has no bit in common with a 5-bit code, so their sum is their OR (rule R135). -/
theorem charCode_letterCode_eq_or (shift : Nat) :
    charCode (letterCode v shift) = 0x40 ||| (letterCode v shift).setWidth 8 := by
  have hdisjoint : (letterCode v shift).setWidth 8 &&& (0x40 : BitVec 8) = 0 := by
    rw [letterCode, BitVec.setWidth_and, BitVec.and_assoc]
    exact BitVec.and_zero
  rw [BitVec.or_comm]
  exact BitVec.add_eq_or_of_and_eq_zero _ _ hdisjoint

theorem codeInRange_iff (code : VenWord) : codeInRange code = true ↔ 1 ≤ code.toNat ∧ code.toNat ≤ 26 := by
  rw [codeInRange, Bool.and_eq_true, decide_eq_true_iff, decide_eq_true_iff]

theorem inRange_iff_codes : inRange v = true ↔
    (1 ≤ v.toNat / 1024 % 32 ∧ v.toNat / 1024 % 32 ≤ 26) ∧ (1 ≤ v.toNat / 32 % 32 ∧ v.toNat / 32 % 32 ≤ 26) ∧
      (1 ≤ v.toNat % 32 ∧ v.toNat % 32 ≤ 26) := by
  simp only [inRange, inRangeFlag, Bool.and_eq_true, and_assoc, codeInRange_iff, letterCode_toNat, Nat.reducePow,
    Nat.div_one]

theorem inRange_iff_forall_codes : inRange v = true ↔
    ∀ code ∈ [v.toNat / 1024 % 32, v.toNat / 32 % 32, v.toNat % 32], 1 ≤ code ∧ code ≤ 26 := by
  rw [inRange_iff_codes]
  simp only [List.forall_mem_cons, List.not_mem_nil, false_imp_iff, implies_true, and_true]

/-- A code is in 1 to 26 exactly when its letter is in 65 to 90 (rule R134). -/
theorem inRange_iff_forall_letters : inRange v = true ↔
    ∀ l ∈ [letter0 v, letter1 v, letter2 v], 65 ≤ l.toNat ∧ l.toNat ≤ 90 := by
  rw [inRange_iff_codes]
  simp only [List.forall_mem_cons, List.not_mem_nil, false_imp_iff, implies_true, and_true, letter0_toNat,
    letter1_toNat, letter2_toNat]
  omega

end Values

/-- Settles O48: each letter is made from the code at its shift. -/
theorem lettersAreTheirCodesPlus64 : Obligations.LettersAreTheirCodesPlus64 :=
  fun v _ => ⟨⟨_, rfl, rfl, letter0_toNat v⟩, ⟨_, rfl, rfl, letter1_toNat v⟩, ⟨_, rfl, rfl, letter2_toNat v⟩⟩

/-- Settles O49: the flag compares the codes, and adding 64 to a code and to its bounds changes no comparison. -/
theorem inRangeTestsAllThreeCodes : Obligations.InRangeTestsAllThreeCodes :=
  fun v _ => ⟨_, rfl, rfl, inRange_iff_codes v, inRange_iff_forall_letters v⟩

/-- Settles O51: the three letters are the three shifts of one formula. -/
theorem letterSumsNeverCarry : Obligations.LetterSumsNeverCarry := by
  intro v letter code hmem
  obtain ⟨shift, rfl, rfl⟩ : ∃ shift, letter = charCode (letterCode v shift) ∧ code = letterCode v shift := by
    simp only [List.mem_cons, List.not_mem_nil, or_false, Prod.mk.injEq] at hmem
    obtain ⟨hletter, hcode⟩ | ⟨hletter, hcode⟩ | ⟨hletter, hcode⟩ := hmem
    · exact ⟨10, hletter, hcode⟩
    · exact ⟨5, hletter, hcode⟩
    · exact ⟨0, hletter, by rw [hcode, letterCode, BitVec.ushiftRight_zero]⟩
  have hcode := letterCode_lt v shift
  have hsum := charCode_toNat _ hcode
  exact ⟨hsum, charCode_letterCode_eq_or v shift, by omega⟩

/-! ### Bit 15 (rule R130) -/

/-- Words that agree in bits 14:0 unpack alike. -/
theorem venUnpack_congr {v v' : VenWord} (h : v.toNat % 2 ^ 15 = v'.toNat % 2 ^ 15) : venUnpack v = venUnpack v' := by
  have code {shift : Nat} (hshift : v.toNat / 2 ^ shift % 32 = v'.toNat / 2 ^ shift % 32) :
      letterCode v shift = letterCode v' shift :=
    BitVec.eq_of_toNat_eq (by rw [letterCode_toNat, letterCode_toNat, hshift])
  have h10 : letterCode v 10 = letterCode v' 10 := code (by omega)
  have h5 : letterCode v 5 = letterCode v' 5 := code (by omega)
  have h0 : letterCode v 0 = letterCode v' 0 := code (by omega)
  simp only [venUnpack, letter0, letter1, letter2, inRange, h10, h5, h0]

theorem venUnpack_and_low15 (v : VenWord) : venUnpack (v &&& 0x7FFF) = venUnpack v := by
  refine venUnpack_congr ?_
  have hmask : (v &&& 0x7FFF).toNat = v.toNat % 2 ^ 15 := Nat.and_two_pow_sub_one_eq_mod _ 15
  rw [hmask, Nat.mod_mod]

theorem venUnpack_or_bit15 (v : VenWord) : venUnpack (0x8000 ||| v) = venUnpack v := by
  refine venUnpack_congr ?_
  rw [BitVec.toNat_or, Nat.or_mod_two_pow]
  exact Nat.zero_or _

/-- Bit 15 of the word is bit 7 of the first byte. -/
theorem venUnpack_be16_xor_bit7 (first second : Byte) :
    venUnpack (be16 (first ^^^ 0x80) second) = venUnpack (be16 first second) := by
  have hlow : (first ^^^ 0x80).toNat % 2 ^ 7 = first.toNat % 2 ^ 7 := by
    rw [BitVec.toNat_xor, Nat.xor_mod_two_pow]
    exact Nat.xor_zero _
  refine venUnpack_congr ?_
  rw [be16_toNat, be16_toNat]
  omega

/-- The last bank written stands. -/
theorem State.writeVen_writeVen (s : State) (bank bank' : VenBank) :
    (s.writeVen bank).writeVen bank' = s.writeVen bank' :=
  rfl

/-- Each row fills its own register of the bank, and the four rows fill all four. -/
theorem execAll_venRows (v : VenWord) (s : State) :
    execAll [.venLetter0 v, .venLetter1 v, .venLetter2 v, .venInRange v] s = .next (s.writeVen (venUnpack v)) := by
  simp only [execAll, exec, execVenLetter0, execVenLetter1, execVenLetter2, execVenInRange, State.writeVen_ven,
    State.writeVen_writeVen]
  rfl

/-- Settles O50: the bank is `VEN_UNPACK` of the word, whose four results read bits 14:0. -/
theorem venUnpackDoesNotReadBit15 : Obligations.VenUnpackDoesNotReadBit15 := by
  refine fun v s => ⟨s.writeVen (venUnpack v), rfl, rfl, letter0_toNat v, letter1_toNat v, letter2_toNat v,
    inRange_iff_forall_codes v, execAll_venRows v s, ?_⟩
  rw [exec, execVenUnpack, venUnpack_and_low15]

/-! ### The inverse packing (rules R77 and R136) -/

section Packing

variable {l0 l1 l2 : BitVec 8} (h0 : 65 ≤ l0.toNat ∧ l0.toNat ≤ 90) (h1 : 65 ≤ l1.toNat ∧ l1.toNat ≤ 90)
  (h2 : 65 ≤ l2.toNat ∧ l2.toNat ≤ 90)
include h0 h1 h2

/-- The three codes lie side by side in the packed word, so their OR is their sum. -/
theorem venPack_toNat :
    (venPack l0 l1 l2).toNat = (l0.toNat - 64) * 1024 + (l1.toNat - 64) * 32 + (l2.toNat - 64) := by
  have code {l : BitVec 8} (h : 65 ≤ l.toNat ∧ l.toNat ≤ 90) : (l.setWidth 16 - 64 : VenWord).toNat = l.toNat - 64 := by
    simp only [BitVec.toNat_sub, BitVec.toNat_setWidth, BitVec.ofNat_eq_ofNat, BitVec.toNat_ofNat]; omega
  simp only [venPack, BitVec.toNat_or, BitVec.toNat_shiftLeft, code h0, code h1, code h2]
  rw [Nat.mod_eq_of_lt (by rw [Nat.shiftLeft_eq]; omega), Nat.mod_eq_of_lt (by rw [Nat.shiftLeft_eq]; omega),
    Nat.or_assoc, ← Nat.shiftLeft_add_eq_or_of_lt (b := l2.toNat - 64) (by omega),
    ← Nat.shiftLeft_add_eq_or_of_lt (by rw [Nat.shiftLeft_eq]; omega), Nat.shiftLeft_eq, Nat.shiftLeft_eq]
  omega

theorem venUnpack_venPack :
    venUnpack (venPack l0 l1 l2) = { letter0 := l0, letter1 := l1, letter2 := l2, inRange := true } := by
  have hpack := venPack_toNat h0 h1 h2
  rw [venUnpack, VenBank.mk.injEq]
  refine ⟨BitVec.eq_of_toNat_eq ?_, BitVec.eq_of_toNat_eq ?_, BitVec.eq_of_toNat_eq ?_, ?_⟩
  · rw [letter0_toNat]; omega
  · rw [letter1_toNat]; omega
  · rw [letter2_toNat]; omega
  · rw [inRange_iff_codes]; omega

end Packing

/-- Settles O52: each code comes back from its own five bits, and bit 15 is not read. -/
theorem vendorRoundTrip : Obligations.VendorRoundTrip := by
  intro l0 l1 l2 hletters
  simp only [List.forall_mem_cons] at hletters
  obtain ⟨h0, h1, h2, -⟩ := hletters
  exact ⟨venUnpack_venPack h0 h1 h2, (venUnpack_or_bit15 _).trans (venUnpack_venPack h0 h1 h2)⟩

/-! ### The `PUSH` that commits a word (rules R144 and R147) -/

/-- The `PUSH` that finds one byte of a word in `buf` writes the second and commits both. -/
theorem exec_push_second {s : State} (hm : s.mode = .ven) (hpos : s.pos = 1) (b : Byte) :
    exec (.push b) s =
      .next { s with mode := .idle, pos := 2, buf := s.buf.set 1 b, ven := venUnpack (be16 s.buf[0] b)
                     venValid := true } := by
  have hpush : exec (.push b) s = .next (s.pushVen b) := by simp only [exec, execPush, hm]
  rw [hpush, State.pushVen_second hpos]

/-- Settles O55: the bank a commit leaves is `VEN_UNPACK` of the big-endian word, which does not read bit 15. -/
theorem commitWritesTheLettersAndTheRange : Obligations.CommitWritesTheLettersAndTheRange := by
  intro s second v hm hpos hv
  rw [shiftLeft_eight_or_byte, ← be16_toNat] at hv
  subst hv
  have hflip := exec_push_second (s := { s with buf := s.buf.set 0 (s.buf[0] ^^^ 0x80) }) hm hpos second
  refine ⟨_, exec_push_second hm hpos second, rfl, letter0_toNat _, letter1_toNat _, letter2_toNat _,
    inRange_iff_forall_codes _, _, hflip, ?_⟩
  simp only [Vector.getElem_set_self]
  exact venUnpack_be16_xor_bit7 s.buf[0] second

end Sys2Proof.Machine
end

section
/-!
PROOFS of the family `42_host_commands.md`: the dispatch table one command at a time, what an accepted `PUSH` takes and
when it commits, where a placed unit goes, and from these each command's effect and frame.
-/
namespace Sys2Proof.Machine

/-! ### The dispatch, command by command (rules R140 to R145) -/

namespace State

variable (s : State)

theorem afterCmd_nop : s.afterCmd .nop = s := by
  unfold afterCmd; cases s.mode <;> rfl

theorem afterCmd_startDtd : s.afterCmd .startDtd = if s.mode = .idle then s.openDtd else s := by
  unfold afterCmd; cases s.mode <;> rfl

theorem afterCmd_startVen : s.afterCmd .startVen = if s.mode = .idle then s.openVen else s := by
  unfold afterCmd; cases s.mode <;> rfl

theorem afterCmd_push (b : Byte) :
    s.afterCmd (.push b) = if s.mode = .dtd then s.pushDtd b else if s.mode = .ven then s.pushVen b else s := by
  unfold afterCmd; cases s.mode <;> rfl

theorem afterCmd_endBuffer : s.afterCmd .endBuffer = if s.mode.busy = true then s.raiseIncomplete s.pos else s := by
  unfold afterCmd; cases s.mode <;> rfl

variable {s}

/-- After a failure every command is ignored. -/
theorem afterCmd_of_failed (hm : s.mode = .failed) (i : Instr) : s.afterCmd i = s := by
  simp only [afterCmd, hm]

end State

/-- A command runs as its row of the dispatch table. -/
theorem exec_command {i : Instr} (h : i.row.format = .cmd10) (s : State) : exec i s = .next (s.afterCmd i) := by
  obtain ⟨w, rfl⟩ := exists_decodeCmd_of_format_cmd10 h
  exact exec_decodeCmd w s

theorem exec_startDtd (s : State) : exec .startDtd s = .next (if s.mode = .idle then s.openDtd else s) := by
  rw [exec_command rfl, s.afterCmd_startDtd]

theorem exec_startVen (s : State) : exec .startVen s = .next (if s.mode = .idle then s.openVen else s) := by
  rw [exec_command rfl, s.afterCmd_startVen]

theorem exec_push_dtd {s : State} (hm : s.mode = .dtd) (b : Byte) : exec (.push b) s = .next (s.pushDtd b) := by
  rw [exec_command rfl, s.afterCmd_push, if_pos hm]

theorem exec_push_ven {s : State} (hm : s.mode = .ven) (b : Byte) : exec (.push b) s = .next (s.pushVen b) := by
  rw [exec_command rfl, s.afterCmd_push, if_neg (by simp [hm]), if_pos hm]

theorem exec_push_closed {s : State} (hm : s.mode = .idle ∨ s.mode = .failed) (b : Byte) :
    exec (.push b) s = .next s := by
  rw [exec_command rfl, s.afterCmd_push]
  rcases hm with hm | hm <;> simp [hm]

theorem exec_endBuffer (s : State) :
    exec .endBuffer s = .next (if s.mode.busy = true then s.raiseIncomplete s.pos else s) := by
  rw [exec_command rfl, s.afterCmd_endBuffer]

/-- Settles O8: the rows of the table are those of `afterCmd`, for each mode and each of the five commands. -/
theorem stepFunctionIsTheDispatchTable : Obligations.StepFunctionIsTheDispatchTable := by
  intro s w
  refine ⟨cycle_true w s, (cycle_false w s).trans (congrArg _ ?_)⟩
  unfold State.afterCmd
  rcases decodeCmd_cases w with h | h | h | ⟨b, h⟩ | h <;> rw [h] <;> cases s.mode <;> rfl

/-- Settles O16: the row of `START DTD`. -/
theorem startDtdOpensARecord : Obligations.StartDtdOpensARecord :=
  ⟨fun s hm => (exec_startDtd s).trans (by rw [if_pos hm]; rfl),
    fun s hm => (exec_startDtd s).trans (by rw [if_neg hm])⟩

/-- Settles O17: the row of `START VEN`. -/
theorem startVenOpensAWord : Obligations.StartVenOpensAWord :=
  ⟨fun s hm => (exec_startVen s).trans (by rw [if_pos hm]; rfl),
    fun s hm => (exec_startVen s).trans (by rw [if_neg hm])⟩

/-- Settles O22: the row of `END`. -/
theorem endInsideARecordRaisesIncomplete : Obligations.EndInsideARecordRaisesIncomplete := by
  refine ⟨fun s hm => ?_, fun s hm => ?_⟩
  · rw [exec_endBuffer, if_pos (s.mode.busy_iff.mpr hm)]
    rfl
  · have hclosed : ¬ s.mode.busy = true := by rcases hm with hm | hm <;> simp [hm, Mode.busy]
    rw [exec_endBuffer, if_neg hclosed]

/-- Settles O24: each pair of mode and command that rule R148 names falls to a row that leaves the state as it is. -/
theorem ignoredCommandsChangeNothing : Obligations.IgnoredCommandsChangeNothing := by
  refine ⟨fun s w hm => ?_, fun s w hm hw => ?_, fun s w hm hw => ?_⟩ <;> rw [cycle_false]
  · rw [State.afterCmd_of_failed hm]
  · rcases hw with ⟨b, hw⟩ | hw <;> rw [hw]
    · simp [s.afterCmd_push, hm]
    · simp [s.afterCmd_endBuffer, hm, Mode.busy]
  · have hopen : s.mode ≠ .idle := by rcases hm with hm | hm <;> simp [hm]
    rcases hw with hw | hw <;> rw [hw]
    · rw [s.afterCmd_startDtd, if_neg hopen]
    · rw [s.afterCmd_startVen, if_neg hopen]

/-! ### Runs of commands that change nothing -/

/-- A run of commands none of which changes the state ends where it began. -/
theorem runInputs_of_afterCmd_eq {s : State} {ws : List CmdWord} (h : ∀ w ∈ ws, s.afterCmd (decodeCmd w) = s) :
    runInputs (ws.map Input.ofCmd) s = .next s := by
  rw [runInputs_eq_foldl, List.foldl_map]
  congr 1
  induction ws with
  | nil => rfl
  | cons w ws ih =>
    obtain ⟨hw, hws⟩ := List.forall_mem_cons.mp h
    rw [List.foldl_cons, s.afterInput_ofCmd, hw]
    exact ih hws

/-- Settles O15: the row of `NOP` is the identity, and a run of such steps stays where it is. -/
theorem nopsHaveNoEffect : Obligations.NopsHaveNoEffect := by
  refine ⟨fun s => ?_, fun s ws hws => runInputs_of_afterCmd_eq fun w hw => ?_⟩
  · rw [exec_command rfl, s.afterCmd_nop]
  · rw [hws w hw, s.afterCmd_nop]

/-! ### What an accepted `PUSH` leaves (rules R144, R146 and R147) -/

namespace State

variable (s : State) (b : Byte)

@[simp] theorem pushDtd_buf : (s.pushDtd b).buf = (s.takeByte b).buf := by
  unfold pushDtd; split <;> simp

@[simp] theorem pushVen_buf : (s.pushVen b).buf = (s.takeByte b).buf := by
  unfold pushVen; split <;> simp

@[simp] theorem pushDtd_pos : (s.pushDtd b).pos = (s.takeByte b).pos := by
  unfold pushDtd; split <;> simp

@[simp] theorem pushVen_pos : (s.pushVen b).pos = (s.takeByte b).pos := by
  unfold pushVen; split <;> simp

theorem pushDtd_mode : (s.pushDtd b).mode = if s.pos.toNat = 17 then .idle else s.mode := by
  split
  · simp [pushDtd_last b ‹_›]
  · simp [pushDtd_more b ‹_›]

theorem pushVen_mode : (s.pushVen b).mode = if s.pos.toNat = 1 then .idle else s.mode := by
  split
  · simp [pushVen_last b ‹_›]
  · simp [pushVen_more b ‹_›]

theorem pushDtd_dtdValid : (s.pushDtd b).dtdValid = if s.pos.toNat = 17 then true else s.dtdValid := by
  split
  · simp [pushDtd_last b ‹_›]
  · simp [pushDtd_more b ‹_›]

theorem pushVen_venValid : (s.pushVen b).venValid = if s.pos.toNat = 1 then true else s.venValid := by
  split
  · simp [pushVen_last b ‹_›]
  · simp [pushVen_more b ‹_›]

variable {s}

/-- The 18th byte of a record commits it. -/
theorem pushDtd_eighteenth (hm : s.mode = .dtd) (hpos : s.pos = 17) :
    s.pushDtd b =
      { s with mode := .idle, pos := 18, buf := s.buf.set 17 b, dtd := dtdUnpack (s.buf.set 17 b), dtdValid := true } :=
  Host.Outcome.next.inj ((exec_push_dtd hm b).symm.trans (exec_push_eighteenth hm hpos b))

/-- A byte taken into `buf` goes to `buf[pos]` alone. -/
theorem takeByte_getElem (hpos : s.pos.toNat < 18) (k : Nat) (hk : k < 18) :
    (s.takeByte b).buf[k] = if k = s.pos.toNat then b else s.buf[k] := by
  simp only [takeByte_buf b hpos, Vector.getElem_set, eq_comm]

/-- A byte taken into `buf` changes `buf` and `pos` alone. -/
theorem takeByte_frame (hpos : s.pos.toNat < 18) :
    s.takeByte b = { s with buf := (s.takeByte b).buf, pos := (s.takeByte b).pos } := by
  rw [takeByte_inRange b hpos]

/-- Where `pos` names no byte of `buf`, all of `buf` takes free values. -/
theorem takeByte_pastBuffer (hpos : 18 ≤ s.pos.toNat) :
    s.takeByte b =
      { s with
        buf := freeBuf s.draws
        pos := if s.pos.toNat = 31 then Config.freeValue 5 s.draws 1 else s.pos + 1
        draws := s.draws + 1 } := by
  unfold takeByte; exact dif_neg (by omega)

end State

/-- Settles O18: the byte taken fixes `buf` and `pos`; the frame is that of taking a byte or, with the last byte of the
record, that of the commit. -/
theorem pushTakesTheNextByte : Obligations.PushTakesTheNextByte := by
  refine ⟨?_, fun s b hm => exec_push_closed hm b⟩
  rintro s b len (⟨hm, rfl⟩ | ⟨hm, rfl⟩) hpos
  · refine ⟨s.pushDtd b, exec_push_dtd hm b, ?_, ?_, fun hmore => ?_, fun hlast _ => ?_, by simp [hm]⟩
    · simpa using State.takeByte_getElem b hpos
    · simpa using State.takeByte_pos b hpos
    · rw [State.pushDtd_more b (by omega)]
      exact State.takeByte_frame b hpos
    · have hpos17 : s.pos = 17 := BitVec.eq_of_toNat_eq (Nat.succ.inj hlast)
      rw [State.pushDtd_eighteenth b hm hpos17]
  · refine ⟨s.pushVen b, exec_push_ven hm b, ?_, ?_, fun hmore => ?_, by simp [hm], fun hlast _ => ?_⟩
    · simpa using State.takeByte_getElem b hpos
    · simpa using State.takeByte_pos b hpos
    · rw [State.pushVen_more b (by omega)]
      exact State.takeByte_frame b hpos
    · have hpos1 : s.pos = 1 := BitVec.eq_of_toNat_eq (Nat.succ.inj hlast)
      simp [State.pushVen_second hpos1]

/-- Settles O19: past `buf` no `PUSH` is the last of its record, so it does what taking the byte does. -/
theorem pushPastTheBufferStillCompletes : Obligations.PushPastTheBufferStillCompletes := by
  intro s b hm hpos
  have htake : exec (.push b) s = .next (s.takeByte b) := by
    rcases hm with hm | hm
    · rw [exec_push_dtd hm, State.pushDtd_more b (by omega)]
    · rw [exec_push_ven hm, State.pushVen_more b (by omega)]
  rw [State.takeByte_pastBuffer b hpos] at htake
  refine ⟨_, htake, rfl, fun hlt => ?_⟩
  rw [if_neg (by omega), BitVec.toNat_add]
  exact Nat.mod_eq_of_lt (show s.pos.toNat + 1 < 2 ^ 5 by omega)

/-- Of the commands only the `PUSH` of the 18th byte raises `dtd_valid`. -/
theorem State.afterCmd_dtdValid_rises {s : State} {i : Instr} (hs : s.dtdValid = false)
    (ht : (s.afterCmd i).dtdValid = true) : s.mode = .dtd ∧ s.pos = 17 ∧ ∃ b, i = .push b := by
  unfold State.afterCmd at ht
  split at ht
  case h_3 b hm =>
    rw [s.pushDtd_dtdValid, hs] at ht
    exact ⟨hm, BitVec.eq_of_toNat_eq (by simpa using ht), b, rfl⟩
  all_goals simp [hs] at ht

/-- Of the commands only the `PUSH` of the 2nd byte raises `ven_valid`. -/
theorem State.afterCmd_venValid_rises {s : State} {i : Instr} (hs : s.venValid = false)
    (ht : (s.afterCmd i).venValid = true) : s.mode = .ven ∧ s.pos = 1 ∧ ∃ b, i = .push b := by
  unfold State.afterCmd at ht
  split at ht
  case h_4 b hm =>
    rw [s.pushVen_venValid, hs] at ht
    exact ⟨hm, BitVec.eq_of_toNat_eq (by simpa using ht), b, rfl⟩
  all_goals simp [hs] at ht

/-- A cycle is a reset or a row of the dispatch table. -/
theorem cycle_cases {s t : State} {rst : Bool} {w : CmdWord} (h : cycle rst w s = .next t) :
    (rst = true ∧ t = s.resetStep) ∨ (rst = false ∧ t = s.afterCmd (decodeCmd w)) := by
  cases rst
  · exact .inr ⟨rfl, by simpa [cycle_false, eq_comm] using h⟩
  · exact .inl ⟨rfl, by simpa [cycle_true, eq_comm] using h⟩

/-- Settles O20: the 18th `PUSH` commits the record in `buf`; a reset clears the flag, and no other command raises
it. -/
theorem eighteenthByteCommitsTheRecord : Obligations.EighteenthByteCommitsTheRecord := by
  refine ⟨fun s rec => exec_push_last_of_arrived, fun s t rst w hc hs ht => ?_⟩
  obtain ⟨-, rfl⟩ | ⟨hrst, rfl⟩ := cycle_cases hc
  · cases ht
  · exact ⟨hrst, State.afterCmd_dtdValid_rises hs ht⟩

/-- Settles O21: the 2nd `PUSH` commits the big-endian word; a reset clears the flag, and no other command raises it. -/
theorem secondByteCommitsTheVendorWord : Obligations.SecondByteCommitsTheVendorWord := by
  refine ⟨fun s b v hm hpos hv => ?_, fun s t rst w hc hs ht => ?_⟩
  · have hword : v = be16 s.buf[0] b := BitVec.eq_of_toNat_eq (hv.trans (be16_toNat _ _).symm)
    rw [hword]
    exact exec_push_second hm hpos b
  · obtain ⟨-, rfl⟩ | ⟨hrst, rfl⟩ := cycle_cases hc
    · cases ht
    · exact ⟨hrst, State.afterCmd_venValid_rises hs ht⟩

/-! ### How `mode` and `pos` move (rule R149) -/

/-- A command keeps `mode` or moves it along an arrow. -/
theorem State.afterCmd_mode (s : State) (i : Instr) :
    (s.afterCmd i).mode = s.mode ∨ (s.mode, (s.afterCmd i).mode) ∈
      [(Mode.idle, Mode.dtd), (.dtd, .idle), (.idle, .ven), (.ven, .idle), (.dtd, .failed), (.ven, .failed)] := by
  unfold State.afterCmd
  split
  case h_3 b hm => rw [s.pushDtd_mode]; split <;> simp [hm]
  case h_4 b hm => rw [s.pushVen_mode]; split <;> simp [hm]
  case h_7 => exact .inl rfl
  all_goals simp [*]

/-- An accepted `PUSH` adds 1 to `pos`. -/
theorem State.Inv.afterCmd_push_pos {s : State} (h : s.Inv) (hm : s.mode.busy = true) (b : Byte) :
    (s.afterCmd (.push b)).pos.toNat = s.pos.toNat + 1 := by
  have htake := State.takeByte_pos b (h.pos_lt hm)
  rcases s.mode.busy_iff.mp hm with hm | hm <;> simpa [s.afterCmd_push, hm] using htake

/-- Settles O26: `mode` by the rows of the table, `pos` command by command. -/
theorem modeMovesOnlyAlongTheArrows : Obligations.ModeMovesOnlyAlongTheArrows := by
  refine ⟨fun s t w hc => ?_, fun s t w hc => ?_, fun s t w h hc => ?_⟩
  · obtain rfl : s.afterCmd (decodeCmd w) = t := by simpa [cycle_false] using hc
    exact s.afterCmd_mode _
  · obtain rfl : s.resetStep = t := by simpa [cycle_true] using hc
    rfl
  · obtain rfl : s.afterCmd (decodeCmd w) = t := by simpa [cycle_false] using hc
    rcases decodeCmd_cases w with hw | hw | hw | ⟨b, hw⟩ | hw <;> rw [hw]
    · simp [s.afterCmd_nop, Instr.row]
    · by_cases hm : s.mode = .idle <;> simp [s.afterCmd_startDtd, hm, Instr.row]
    · by_cases hm : s.mode = .idle <;> simp [s.afterCmd_startVen, hm, Instr.row]
    · by_cases hm : s.mode.busy = true
      · simpa [hm, Instr.row] using h.afterCmd_push_pos hm b
      · have hclosed : s.mode ≠ .dtd ∧ s.mode ≠ .ven := not_or.mp (mt s.mode.busy_iff.mpr hm)
        simp [s.afterCmd_push, hclosed, hm, Instr.row]
    · by_cases hm : s.mode.busy = true <;> simp [s.afterCmd_endBuffer, hm, Instr.row]

/-! ### The host's steps and the units it places (rules R140, R146 and R147) -/

/-- Settles O7: with no input pending the run is over, and every cycle answers a next state. -/
theorem stepStopsOnlyWhenTheHostDoes : Obligations.StepStopsOnlyWhenTheHostDoes := by
  refine ⟨fun s h => by simp only [step, h], fun s h => ?_⟩
  obtain ⟨i, rest, hin⟩ := List.exists_cons_of_ne_nil h
  exact ⟨_, (step_of_inputs hin).trans (cycle_eq_afterInput i _)⟩

/-- A pending command is run on the state with the rest of the inputs pending. -/
theorem step_of_ofCmd {s : State} {w : CmdWord} {rest : List Input} (h : s.inputs = Input.ofCmd w :: rest) :
    step s = exec (decodeCmd w) (s.withInputs rest) :=
  step_of_inputs h

theorem tableBytes_eq_cmdBytes {w : Nat} (hw : w < 1024) : tableBytes 2 w = cmdBytes (BitVec.ofNat 10 w) := by
  have hlow : BitVec.ofNat 8 w = CmdWord.arg (BitVec.ofNat 10 w) := by
    apply BitVec.eq_of_toNat_eq
    rw [CmdWord.arg_toNat, BitVec.toNat_ofNat, BitVec.toNat_ofNat]
    omega
  have hhigh : BitVec.ofNat 8 (w >>> 8) = (CmdWord.op (BitVec.ofNat 10 w)).setWidth 8 := by
    apply BitVec.eq_of_toNat_eq
    simp only [CmdWord.op, BitVec.toNat_setWidth, BitVec.extractLsb'_toNat, BitVec.toNat_ofNat,
      Nat.shiftRight_eq_div_pow]
    omega
  rw [cmdBytes, ← hlow, ← hhigh]
  rfl

theorem decodeTableWord_command {w : Nat} (hw : w < 1024) :
    decodeTableWord 16 w = some (decodeCmd (BitVec.ofNat 10 w)) := by
  have hfits : cmdWordFits w = true := decide_eq_true hw
  simp [decodeTableWord, hfits, tableBytes_eq_cmdBytes hw, decode_cmd10_cmdBytes, Except.toOption]

theorem placeTableWord_command {w : Nat} (hw : w < 1024) (s : State) :
    placeTableWord s 16 w = s.placeCmd (BitVec.ofNat 10 w) := by
  rw [placeTableWord, decodeTableWord_command hw]
  rcases decodeCmd_cases (BitVec.ofNat 10 w) with h | h | h | ⟨b, h⟩ | h <;> rw [h]

/-- Settles O5: a pending command is taken and decoded; a number below 1024 is placed as the command it reads as. -/
theorem stepRunsTheDecodedCommand : Obligations.StepRunsTheDecodedCommand := by
  refine ⟨fun s w rest => step_of_ofCmd, fun s w hw => ⟨decodeTableWord_command hw, ?_⟩⟩
  rw [State.withFetchWord, placeTableWord_command hw]
  exact step_of_ofCmd (s := s.placeCmd _) rfl

/-- Settles O6: the next step of a placed unit is the `PUSH` of its last byte, which commits the bytes placed. -/
theorem stepRunsTheDataOperations : Obligations.StepRunsTheDataOperations := by
  refine ⟨fun s rec => ⟨_, rfl, ?_⟩, fun s v => ⟨_, rfl, ?_⟩⟩
  · have harrived : ∀ (k : Nat) (hk : k < 17), ((s.placeRecord rec).withInputs s.inputs).buf[k] = rec[k] :=
      fun k hk => Vector.getElem_set_ne (by decide) (by omega) (by omega)
    rw [step_of_ofCmd (s := s.placeRecord rec) rfl, decodeCmd_pushOf, exec_push_last_of_arrived rfl rfl harrived]
    rfl
  · have hword : be16 ((s.placeVen v).withInputs s.inputs).buf[0] (v.extractLsb' 0 8) = v := by
      simp [State.placeVen, be16_of_bytes]
    rw [step_of_ofCmd (s := s.placeVen v) rfl, decodeCmd_pushOf,
      exec_push_second (s := (s.placeVen v).withInputs s.inputs) rfl rfl, hword]
    rfl

/-! ### The verdicts (rule R150) -/

/-- Settles O31: a failure clears both flags and is no open record, and an open record's own flag is clear. -/
theorem verdictsExcludeEachOther : Obligations.VerdictsExcludeEachOther := by
  refine fun s h => ⟨fun hf => ?_, fun hm => ⟨s.mode.busy_iff.mpr (.inl hm), h.dtdOpen hm⟩,
    fun hm => ⟨s.mode.busy_iff.mpr (.inr hm), h.venOpen hm⟩⟩
  have hm : s.mode = .failed := s.mode.errIncomplete_iff.mp hf
  obtain ⟨hdtd, hven⟩ := h.failedFlags hm
  exact ⟨hdtd, hven, by rw [State.unfinished, hm, Mode.busy]⟩

end Sys2Proof.Machine
end

section
/-!
PROOFS of the family `60_exceptions.md`: which command raises `Incomplete` and what it then records, why nothing but a
reset follows it, a detailed timing record cut short, and a step of one block among several.
-/
namespace Sys2Proof.Machine

/-! ### Raising `Incomplete` (rule R161) -/

/-- Without a standing failure, the one row of the dispatch table that leads to `FAILED` is `END` with a record open. -/
theorem State.afterCmd_mode_eq_failed_iff {s : State} (hm : s.mode ≠ .failed) (i : Instr) :
    (s.afterCmd i).mode = .failed ↔ i = .endBuffer ∧ (s.mode = .dtd ∨ s.mode = .ven) := by
  unfold State.afterCmd
  split
  case h_3 b hdtd => rw [s.pushDtd_mode]; split <;> simp [hdtd]
  case h_4 b hven => rw [s.pushVen_mode]; split <;> simp [hven]
  case h_7 hdtd hven => simpa [hm] using fun hend => ⟨(hdtd · hend), (hven · hend)⟩
  all_goals simp [*]

theorem State.afterCmd_endBuffer_of_open {s : State} (hm : s.mode = .dtd ∨ s.mode = .ven) :
    s.afterCmd .endBuffer = s.raiseIncomplete s.pos := by
  rw [s.afterCmd_endBuffer, if_pos (s.mode.busy_iff.mpr hm)]

/-- Settles O23: a reset ends in `IDLE`, and the one command that ends in `FAILED` raises `Incomplete(pos)`, where the
invariant bounds `pos` by the open record's length. -/
theorem onlyEndInsideARecordFails : Obligations.OnlyEndInsideARecordFails := by
  intro s t rst w h hm hc
  obtain ⟨rfl, rfl⟩ | ⟨rfl, rfl⟩ := cycle_cases hc
  · simp
  · have hiff := State.afterCmd_mode_eq_failed_iff hm (decodeCmd w)
    refine ⟨hiff.trans (and_iff_right rfl).symm, fun hfailed => ?_⟩
    obtain ⟨hend, hopen⟩ := hiff.mp hfailed
    rw [hend, State.afterCmd_endBuffer_of_open hopen]
    exact ⟨rfl, fun hdtd => Nat.le_of_lt_succ (h.posDtd hdtd), fun hven => Nat.le_of_lt_succ (h.posVen hven),
      rfl, rfl, rfl, rfl, rfl, rfl, rfl, rfl⟩

/-! ### After the failure (rules R164 and R172) -/

/-- Settles O25: after a failure the dispatch table is the identity, so a run of commands stays where it is; a reset
leaves `IDLE`. -/
theorem failureIsTerminal : Obligations.FailureIsTerminal := by
  refine ⟨fun s ws hm => runInputs_of_afterCmd_eq fun w _ => State.afterCmd_of_failed hm (decodeCmd w),
    fun s t w _ hc => ?_⟩
  obtain rfl : s.resetStep = t := by simpa [cycle_true] using hc
  exact s.resetStep_mode

/-! ### A record cut short -/

/-- The line `END` with a record open raises `Incomplete(pos)`. -/
theorem State.afterInput_endBuffer {s : State} (hm : s.mode = .dtd ∨ s.mode = .ven) :
    s.afterInput (Input.ofCmd 0x300) = s.raiseIncomplete s.pos :=
  State.afterCmd_endBuffer_of_open hm

/-- A detailed timing record cut short ends in the failure raised where its last byte arrived. -/
theorem runInputs_truncatedRecord {s : State} {bytes : List Byte} (hm : s.mode = .idle) (hlen : bytes.length < 18) :
    runInputs (expandAll [.startDtd, .pushN bytes, .endBuffer]) s =
      .next ((s.dtdArrived bytes).raiseIncomplete (s.dtdArrived bytes).pos) := by
  have hexpand : expandAll [.startDtd, .pushN bytes, .endBuffer] =
      Input.ofCmd 0x100 :: (bytes.map Input.push ++ [Input.ofCmd 0x300]) := rfl
  rw [hexpand, runInputs_eq_foldl, List.foldl_cons, State.afterInput_startDtd hm, List.foldl_append,
    foldl_push_openDtd s bytes hlen, List.foldl_cons, List.foldl_nil, State.afterInput_endBuffer (.inl rfl)]

/-- Settles O35: at `END` the record is open with its bytes arrived, so the failure records their number, clears both
flags and keeps both banks. -/
theorem truncatedRecordFails : Obligations.TruncatedRecordFails :=
  fun s _ hm hlen => ⟨_, runInputs_truncatedRecord hm hlen, rfl, s.dtdArrived_pos hlen, rfl, rfl, rfl, rfl⟩

/-! ### Several blocks (rule R173) -/

/-- What block `k` does is a step of its own state, put back in its own place. -/
theorem stepNth_of_getElem? {all all' : List State} {k : Nat} {s : State} (hs : all[k]? = some s)
    (h : stepNth all k = .next all') : ∃ t, step s = .next t ∧ all' = all.set k t := by
  cases hstep : step s with
  | next t => exact ⟨t, rfl, by simpa [stepNth, hs, hstep, eq_comm] using h⟩
  | fault f => simp [stepNth, hs, hstep] at h
  | refused r => simp [stepNth, hs, hstep] at h

/-- A block that does not exist takes no step. -/
theorem stepNth_of_getElem?_none {all : List State} {k : Nat} (hk : all[k]? = none) : stepNth all k = .next all := by
  simp [stepNth, hk]

/-- Settles O32: a step of block `k` replaces entry `k` of the list by what its state steps to alone, and no other
entry. -/
theorem instancesShareNothing : Obligations.InstancesShareNothing := by
  intro all all' k h
  refine ⟨fun j hj => ?_, fun s hs => ?_⟩
  · cases hk : all[k]? with
    | none => rw [Host.Outcome.next.inj ((stepNth_of_getElem?_none hk).symm.trans h)]
    | some s =>
      obtain ⟨t, -, rfl⟩ := stepNth_of_getElem? hk h
      exact List.getElem?_set_ne hj.symm
  · obtain ⟨t, hstep, rfl⟩ := stepNth_of_getElem? hs h
    obtain ⟨hlt, -⟩ := List.getElem?_eq_some_iff.mp hs
    exact ⟨t, hstep, List.getElem?_set_self hlt⟩

end Sys2Proof.Machine
end

section
/-!
PROOFS of the family `70_reset_and_hazards.md`: what a reset step leaves behind, whatever the state it started in.
-/
namespace Sys2Proof.Machine

/-- A cycle with `rst = 1` answers the reset state and no other (rules R164 and R180). -/
theorem cycle_true_eq_next_iff {s t : State} {w : CmdWord} : cycle true w s = .next t ↔ t = s.resetStep := by
  simp [cycle_true, eq_comm]

theorem exec_endBuffer_closed {s : State} (hm : s.mode = .idle ∨ s.mode = .failed) :
    exec .endBuffer s = .next s :=
  endInsideARecordRaisesIncomplete.2 s hm

/-- Settles O11: the state reached is `resetStep`, which is in `IDLE`, where a `PUSH` and an `END` find no record open;
each register is then a field of `resetStep`. -/
theorem resetAbandonsTheOpenRecord : Obligations.ResetAbandonsTheOpenRecord := by
  intro s t w hc
  obtain rfl := cycle_true_eq_next_iff.mp hc
  have hclosed : s.resetStep.mode = .idle ∨ s.resetStep.mode = .failed := .inl s.resetStep_mode
  exact ⟨s.resetStep_mode, s.resetStep_errPos, rfl, s.resetStep_dtdValid, s.resetStep_venValid,
    exec_push_closed hclosed, exec_endBuffer_closed hclosed,
    s.resetStep_buf, s.resetStep_dtd, s.resetStep_ven, s.resetStep_draws, s.resetStep_inputs⟩

/-- Settles O12: `resetStep` meets the invariant from any state, the power-on state among them. -/
theorem anyResetEstablishesTheInvariant : Obligations.AnyResetEstablishesTheInvariant := by
  refine ⟨fun s t w hc => ?_, fun draw inputs w => ⟨_, cycle_true w _, State.Inv.resetStep _⟩⟩
  obtain rfl := cycle_true_eq_next_iff.mp hc
  exact State.Inv.resetStep s

end Sys2Proof.Machine
end
